-- ==== Sys2Proof/Word.lean ====
section
/-! DEFINITION. The words the part computes with: bytes, host port words, sequence numbers, epochs and station numbers
(0.6.2, 0.6.4). Sequence numbers wrap mod 65536, epochs mod 256, station numbers are reckoned mod 32, so each is a bit
vector of its width. -/

namespace Sys2Proof

/-- A byte of a payload or of a frame. -/
abbrev Byte := BitVec 8

/-- A word of the host port (0.6.4). -/
abbrev Word := BitVec 16

/-- A sequence number, 0 to 65535, wrapping (0.6.2). -/
abbrev SeqNum := BitVec 16

/-- A publisher epoch, 0 to 255, wrapping (0.6.2). -/
abbrev Epoch := BitVec 8

/-- A station number, 0 to 31; delays and rotations reckon it mod 32 (0.6.2). -/
abbrev Station := BitVec 5

end Sys2Proof
end

