-- ==== Sys2Proof/Config.lean ====
section
/-! DEFINITION. The fixed numbers of the part (Table 1.6: "properties of the part and cannot be changed") and the limits
of the setup fields' defaults (Table 9.2). The manual leaves no value of the part to the implementation, so nothing here
is opaque. -/

namespace Sys2Proof.Config

/-- Cells of the Retention Store (R1). -/
def cells : Nat := 1024
/-- The acceptance window reaches this far past the window base (R24). -/
def window : Nat := 64
/-- Sequence numbers in one run or GAPREQ (R51, R75). -/
def maxRun : Nat := 8
/-- Messages the DATA duty queue holds (R118). -/
def dataQueueSize : Nat := 32
/-- Records the Delivery Queue holds (R99). -/
def deliverySize : Nat := 128
/-- The collision count at which the next collision abandons the duty (R136). -/
def lastCollision : Nat := 15
/-- Consecutive abandons that make the mute request (R137). -/
def muteLimit : Nat := 3
/-- The largest count of a LOST record (R95, Table 11.2). -/
def maxLost : Nat := 32767
/-- Bytes of the longest payload (0.6.4). -/
def maxPayload : Nat := 120
/-- Bytes of the longest frame, kind byte through check, kept by the receive path (R152). -/
def maxFrame : Nat := 129
/-- Violation cells that make a jam (R145, R153). -/
def jamCells : Nat := 16

end Sys2Proof.Config
end

