-- ==== Sys2Proof/Syntax.lean ====
section
/-! DEFINITION. The commands of the part: one constructor for each row of spec/opcode_table.json, with the row's operands.
A command is a happening that comes to the part from outside: a host word, a take, a reset line, a trunk burst, a report of
the line, a timer running out. The rows DELIVERY_TURN and SELECTION_COMMIT are the turns of the part's two arbiters. -/

namespace Sys2Proof

/-- A cell of a burst on the trunk as the line monitor sees it (R145, Table 8.1). The silent cell is what ends a burst,
so it is no cell of one. -/
inductive BurstCell where
  /-- a data cell: rising mid-cell transition for 1, falling for 0 -/
  | data (bit : Bool)
  /-- a violation cell: a boundary transition and none at the middle -/
  | violation
deriving DecidableEq, Repr

/-- One command. The cell lists of the rows for bursts of others are the cells of the burst that the row speaks of, from its
first cell: for FRAGMENT up to the sixteenth violation cell, for the others up to the silent cell that ends them. FRAME_END and
COLLISION carry the cells read back from the line while the own frame is sent, from the first preamble cell on (R149, R150);
`none` is a silent cell. -/
inductive Instr where
  /-- MRST is asserted (R161) -/
  | masterReset
  /-- MRST is released with these values on the straps (R160) -/
  | mrstRelease (stn : Station) (rate : BitVec 2)
  /-- PRST is asserted (R162) -/
  | partialReset
  /-- a word with WCTL negated; `wend` is WEND (R112) -/
  | dataWord (w : Word) (wend : Bool)
  /-- a word with WCTL asserted; `wend` is WEND (R174) -/
  | controlWord (w : Word) (wend : Bool)
  /-- SET (R164) -/
  | set (field value : Word)
  /-- JOIN (R165) -/
  | join
  /-- LEAVE (R168) -/
  | leave
  /-- RECOVER (R172) -/
  | recover
  /-- STATUS (R180) -/
  | status
  /-- READ_CONTEXT (R181) -/
  | readContext (origin : Word)
  /-- READ_COUNTERS (R185) -/
  | readCounters
  /-- CLEAR_COUNTERS (R185) -/
  | clearCounters
  /-- READ_EVENTS (R183) -/
  | readEvents
  /-- ACK_EVENTS (R182) -/
  | ackEvents (mask : Word)
  /-- SET_EVENT_MASK (R183) -/
  | setEventMask (mask : Word)
  /-- SET_EVENT_PRIORITY (R183) -/
  | setEventPriority (mask : Word)
  /-- DISCARD_HEAD (R105) -/
  | discardHead
  /-- a take on the delivery channel (R100) -/
  | deliveryTake
  /-- a take on the response channel (R176) -/
  | responseTake
  /-- a turn of the Delivery Engine (R93) -/
  | deliveryTurn
  /-- the first transition after silence (R146) -/
  | lineActivity
  /-- 16 bit times without a transition (R146) -/
  | lineIdle
  /-- the commitment at a selection point (R127) -/
  | selectionCommit
  /-- the hold-off timer runs out (R132) -/
  | holdoffRunsOut
  /-- the last check cell of the own frame is read back without mismatch (R149, R134) -/
  | frameEnd (read : List (Option BurstCell))
  /-- a read-back cell differs from the cell sent (R150) -/
  | collision (read : List (Option BurstCell))
  /-- the last jam cell has been sent (R138) -/
  | jamEnd
  /-- a burst reaches its sixteenth consecutive violation cell (R153) -/
  | fragment (cells : List BurstCell)
  /-- a burst ends as a frame error (R154) -/
  | frameError (cells : List BurstCell)
  /-- a burst ends as a good frame with the own station number as sender (R155, R170) -/
  | clash (cells : List BurstCell)
  /-- a burst ends as a good DATA frame (R28) -/
  | rxData (cells : List BurstCell)
  /-- a burst ends as a good REPLAY frame (R28) -/
  | rxReplay (cells : List BurstCell)
  /-- a burst ends as a good GAPREQ frame (R75) -/
  | rxGapreq (cells : List BurstCell)
  /-- a burst ends as a good BEACON frame (R40, R41) -/
  | rxBeacon (cells : List BurstCell)
  /-- the request delay of a tracker runs out (R57) -/
  | requestDelayRunsOut (tracker : Fin 8)
  /-- the repair timeout of a tracker runs out (R63) -/
  | repairTimeoutRunsOut (tracker : Fin 8)
  /-- the replay delays of these duties run out together (R80) -/
  | replayDelayRunsOut (duties : List (Fin 16))
  /-- the beacon timer runs out (R139) -/
  | beaconTimerRunsOut
  /-- the listen timer runs out (R167) -/
  | listenTimerRunsOut
  /-- the silence timer of a context runs out (R46) -/
  | silenceTimerRunsOut (station : Station)
  /-- the first silent cell after a burst that the receive path ignores (R151) -/
  | silentCellEndsSkip
deriving DecidableEq, Repr

end Sys2Proof
end

