-- ==== Sys2Proof/Machine/State.lean ====
section
/-! DEFINITION. The state of the part, block by block as Table 1.2 divides it, and its value after a master reset. Plain
data throughout. Timers are stopped (`none`) or running with the full length they were started with; time itself is the
environment's (log entry 9). -/

namespace Sys2Proof.Machine

/-- Why a step may stop the machine. The manual knows no such stop: every misuse is an event or a response status, so
there is no constructor (safe: nothing can be proved to fault). -/
inductive Fault where
deriving DecidableEq, Repr

/-- Why a command may have no meaning. -/
inductive Refusal where
  /-- raised by an arm of exec whose command has no meaning yet (safe: the machine stops); no arm raises it now -/
  | notModelled (mnemonic : String)
deriving DecidableEq, Repr

/-! ### Retention Store (chapter 1) -/

/-- The key of a message (0.6.2, R3). -/
structure Key where
  origin : Station
  epoch : Epoch
  seq : SeqNum
deriving DecidableEq, Repr

/-- The pin set of an entry (R5). -/
structure Pins where
  due : Bool
  handed : Bool
  tx : Bool
deriving DecidableEq, Repr

/-- A message held in a cell (R3, Table 1.8). Its length is the payload's. -/
structure Entry where
  key : Key
  payload : List Byte
  pins : Pins
deriving DecidableEq, Repr

/-- The store: for each share its HELD cells in age order, oldest first (R7), and the RESERVED cell with the payload bytes
written into it so far (R2, R13). The FREE cells are the rest of the share; which of them is taken cannot be observed
(R10, log entry 4). -/
structure Store where
  own : List Entry
  peer : List Entry
  reserved : Option (List Byte)
deriving DecidableEq, Repr

/-- The purged store (R21). -/
def Store.purged : Store := { own := [], peer := [], reserved := none }

/-! ### Origin Context Table (chapter 2) -/

/-- The state of a context (R23). -/
inductive ContextState where
  | unsynced
  | steady
  | gapped
  | own
deriving DecidableEq, Repr

/-- A context (Table 2.1). -/
structure Context where
  state : ContextState
  epoch : Epoch
  nextDue : SeqNum
  horizon : SeqNum
  lossFloor : SeqNum
  restartPending : Bool
  restartOldEpoch : Epoch
  restartCount : Word
  heardSinceReset : Bool
  silenceTimer : Option Nat
  silent : Bool
  trackerHeld : Bool
deriving DecidableEq, Repr

/-- A peer context after either reset (Table 2.2). -/
def Context.unsynced : Context :=
  { state := .unsynced, epoch := 0, nextDue := 0, horizon := 0, lossFloor := 0, restartPending := false,
    restartOldEpoch := 0, restartCount := 0, heardSinceReset := false, silenceTimer := none, silent := false,
    trackerHeld := false }

/-- The own context after a reset that leaves the own epoch at `e` (Table 2.2). -/
def Context.ownAt (e : Epoch) : Context :=
  { Context.unsynced with state := .own, epoch := e, horizon := 65535 }

/-- The table after a reset: the own context at the own station number, the others UNSYNCED (R26). -/
def contextsAtReset (stn : Station) (e : Epoch) : Vector Context 32 :=
  (Vector.replicate 32 Context.unsynced).set stn.toNat (Context.ownAt e) stn.isLt

/-! ### Repair Tracker Pool (chapter 3) -/

/-- The state of a tracker (Table 3.2). -/
inductive TrackerState where
  | free
  | delay
  | wait
  | parked
deriving DecidableEq, Repr

/-- The timer of a tracker, with the slots it was started with (Table 3.1). -/
inductive TrackerTimer where
  | stopped
  | requestDelay (slots : Nat)
  | repairTimeout (slots : Nat)
deriving DecidableEq, Repr

/-- The request marker of a tracker (Table 3.1). -/
inductive Marker where
  | none
  | pending
  | onWire
deriving DecidableEq, Repr

/-- A tracker (Table 3.1). While it is FREE, all but `state`, `timer`, `marker` and `lastOrigin` carry no meaning (R50). -/
structure Tracker where
  state : TrackerState
  origin : Station
  epoch : Epoch
  runFirst : SeqNum
  runCount : Nat
  attempts : Nat
  timer : TrackerTimer
  marker : Marker
  asked : Option (SeqNum × Nat)
  lastOrigin : Station
deriving DecidableEq, Repr

/-- A tracker after either reset (R72). The fields without meaning are 0 (log entry 5). -/
def Tracker.atReset : Tracker :=
  { state := .free, origin := 0, epoch := 0, runFirst := 0, runCount := 0, attempts := 0, timer := .stopped,
    marker := .none, asked := none, lastOrigin := 31 }

/-- An entry of the request list (R58). -/
structure Request where
  tracker : Fin 8
  count : Nat
deriving DecidableEq, Repr

/-- The pool: the trackers and the request list, oldest first (R50, R58). -/
structure TrackerPool where
  trackers : Vector Tracker 8
  requests : List Request
deriving DecidableEq, Repr

/-- The pool after either reset (R72). -/
def TrackerPool.atReset : TrackerPool := { trackers := Vector.replicate 8 Tracker.atReset, requests := [] }

/-! ### Replay Duty Pool (chapter 4) -/

/-- The state of a duty in use (Table 4.2). -/
inductive DutyState where
  | delay
  | eligible
  | sending
deriving DecidableEq, Repr

/-- A duty in use (Table 4.1). -/
structure Duty where
  key : Key
  state : DutyState
  timer : Option Nat
  count : Nat
deriving DecidableEq, Repr

/-- The pool: the duties, `none` being free, and the eligible order, oldest first (R73, R74). -/
structure DutyPool where
  slots : Vector (Option Duty) 16
  eligible : List (Fin 16)
deriving DecidableEq, Repr

/-- The pool after either reset (R90). -/
def DutyPool.atReset : DutyPool := { slots := Vector.replicate 16 none, eligible := [] }

/-! ### Delivery Engine and Delivery Queue (chapter 5) -/

/-- A delivery record (Table 5.3). -/
inductive Record where
  | message (key : Key)
  | lost (origin : Station) (epoch : Epoch) (first : SeqNum) (count : Nat)
  | restart (origin : Station) (old new : Epoch) (count : Word)
deriving DecidableEq, Repr

/-- The queue, head first, the read position in its head (R100), and the engine's last-served pointer (R93). -/
structure Delivery where
  queue : List Record
  readPos : Nat
  lastServed : Station
deriving DecidableEq, Repr

/-- Queue and engine after either reset (R107, R108). -/
def Delivery.atReset : Delivery := { queue := [], readPos := 0, lastServed := 31 }

/-! ### Submission Unit (chapter 6) -/

/-- The assembly state (Table 6.2). -/
inductive AssemblyState where
  | idle
  | assembling
  | awaitingEnd
  | discarding
deriving DecidableEq, Repr

/-- The marker of an entry of the DATA duty queue (R118). -/
inductive DataMarker where
  | waiting
  | sending
deriving DecidableEq, Repr

/-- An entry of the DATA duty queue (R118). -/
structure DataDuty where
  seq : SeqNum
  count : Nat
  marker : DataMarker
deriving DecidableEq, Repr

/-- The Submission Unit (Table 6.1). -/
structure Submission where
  asm : AssemblyState
  length : Nat
  expected : Nat
  taken : Nat
  ownEpoch : Epoch
  nextSeq : SeqNum
  nextUntx : SeqNum
  queue : List DataDuty
deriving DecidableEq, Repr

/-- The unit after a reset that leaves the own epoch at `e` (Table 6.1; the two dashes of the table are 0, log entry 5). -/
def Submission.atReset (e : Epoch) : Submission :=
  { asm := .idle, length := 0, expected := 0, taken := 0, ownEpoch := e, nextSeq := 0, nextUntx := 0, queue := [] }

/-! ### Transmit Scheduler (chapter 7) -/

/-- The state of the Scheduler (Table 7.2). -/
inductive SchedState where
  | idle
  | holdoff
  | sending
  | jamming
deriving DecidableEq, Repr

/-- Which duty a commitment names (R124): a duty number, a tracker number, the head of the DATA duty queue, the BEACON
duty. -/
inductive DutyRef where
  | replay (d : Fin 16)
  | gapreq (t : Fin 8)
  | data
  | beacon
deriving DecidableEq, Repr

/-- A commitment: the duty and the copy of its collision count (R124). -/
structure Commitment where
  duty : DutyRef
  count : Nat
deriving DecidableEq, Repr

/-- The Scheduler (Table 7.1). The hold-off is in contention cells, the beacon timer in slots. -/
structure Scheduler where
  state : SchedState
  commitment : Option Commitment
  holdoff : Option Nat
  beaconTimer : Option Nat
  beaconDuty : Bool
  beaconCount : Nat
  abandons : Nat
deriving DecidableEq, Repr

/-- The Scheduler after either reset (Table 7.1). -/
def Scheduler.atReset : Scheduler :=
  { state := .idle, commitment := none, holdoff := none, beaconTimer := none, beaconDuty := false, beaconCount := 0,
    abandons := 0 }

/-! ### Trunk Interface (chapter 8) -/

/-- The state of the receive path (Table 8.3). -/
inductive PathState where
  | off
  | waiting
  | hunt
  | assemble
  | own
  | skip
deriving DecidableEq, Repr

/-- The receive path (R151 to R153): its state, the bits last received in HUNT (newest first), the bits of the byte partly
taken (newest first), the receive buffer, the length of the violation run, and the two marks. -/
structure RxPath where
  path : PathState
  lastBits : List Bool
  byteBits : List Bool
  bytes : List Byte
  violations : Nat
  damaged : Bool
  overLong : Bool
deriving DecidableEq, Repr

/-- The receive path in state `p` with nothing received. -/
def RxPath.at (p : PathState) : RxPath :=
  { path := p, lastBits := [], byteBits := [], bytes := [], violations := 0, damaged := false, overLong := false }

/-- The Trunk Interface: the line-idle indication (R146), whether a burst is in progress on the line (R151), the receive
path, and the frame in transmission, kind byte through check (R149). -/
structure Trunk where
  lineIdle : Bool
  burst : Bool
  rx : RxPath
  tx : Option (List Byte)
deriving DecidableEq, Repr

/-- The Trunk Interface after a master reset (R158; no burst in progress, log entry 6). -/
def Trunk.atReset : Trunk := { lineIdle := false, burst := false, rx := RxPath.at .off, tx := none }

/-! ### Station Control (chapter 9) -/

/-- The station state (R159). -/
inductive StationState where
  | setup
  | ready
  | listening
  | active
  | leaving
  | muted
deriving DecidableEq, Repr

/-- The mute reason (R159). -/
inductive MuteReason where
  | abandon
  | clash
deriving DecidableEq, Repr

/-- The flags of CLASS_PRIORITY (Table 9.2). -/
structure ClassFlags where
  replay : Bool
  gapreq : Bool
  data : Bool
  beacon : Bool
deriving DecidableEq, Repr

/-- The setup record (Table 9.2). -/
structure Setup where
  ownShare : Nat
  reqBase : Nat
  repairBase : Nat
  repairTimeout : Nat
  attemptLimit : Nat
  beaconInterval : Nat
  listenPeriod : Nat
  loopback : Bool
  dqAeLevel : Nat
  dqAfOffset : Nat
  initialEpoch : Epoch
  classPriority : ClassFlags
deriving DecidableEq, Repr

/-- The defaults of Table 9.2. -/
def Setup.defaults : Setup :=
  { ownShare := 128, reqBase := 8, repairBase := 16, repairTimeout := 512, attemptLimit := 3, beaconInterval := 4096,
    listenPeriod := 8192, loopback := false, dqAeLevel := 8, dqAfOffset := 8, initialEpoch := 0,
    classPriority := { replay := false, gapreq := false, data := false, beacon := false } }

/-- Station Control: station state and mute reason (R159), the sampled straps (R160), the setup record (R163), the listen
timer (R166), and whether MRST is asserted (R161). -/
structure StationControl where
  state : StationState
  muteReason : Option MuteReason
  stn : Station
  rate : BitVec 2
  setup : Setup
  listenTimer : Option Nat
  mrst : Bool
deriving DecidableEq, Repr

/-- Station Control after a master reset, with these sampled straps, MRST asserted or not (R161). -/
def StationControl.atReset (stn : Station) (rate : BitVec 2) (mrst : Bool) : StationControl :=
  { state := .setup, muteReason := none, stn := stn, rate := rate, setup := Setup.defaults, listenTimer := none,
    mrst := mrst }

/-! ### Control Channel, Event Unit, Counter Bank (chapter 10) -/

/-- The thirteen commands of the control channel (Table 10.2). -/
inductive Command where
  | set
  | join
  | leave
  | recover
  | status
  | readContext
  | readCounters
  | clearCounters
  | readEvents
  | ackEvents
  | setEventMask
  | setEventPriority
  | discardHead
deriving DecidableEq, Repr

/-- The parser (Table 10.1). COLLECTING holds the command and the arguments taken; the words expected are what the
command's argument count leaves. -/
inductive Parser where
  | idle
  | collecting (cmd : Command) (args : List Word)
  | rejecting
  | ignoring
deriving DecidableEq, Repr

/-- The Control Channel: the parser, the response buffer (empty or one response) and its read position (R174, R176). -/
structure Control where
  parser : Parser
  response : List Word
  readPos : Nat
deriving DecidableEq, Repr

/-- The Control Channel after either reset (R179). -/
def Control.atReset : Control := { parser := .idle, response := [], readPos := 0 }

/-- The Event Unit: flags, mask bits and priority bits in the positions of Table 11.5 (R182, R183). -/
structure Events where
  flags : BitVec 11
  mask : BitVec 11
  priority : BitVec 11
deriving DecidableEq, Repr

/-- The Event Unit after a master reset (R183). -/
def Events.atReset : Events := { flags := 0, mask := BitVec.allOnes 11, priority := 0 }

/-- The Counter Bank (Table 10.5). -/
structure Counters where
  rxGood : Word
  rxError : Word
  rxStale : Word
  rxNoroom : Word
  collisions : Word
  abandons : Word
  replaysSent : Word
  requestsSent : Word
  dutyDrops : Word
  lostSeqs : Word
deriving DecidableEq, Repr

/-- The counters after either reset and after CLEAR_COUNTERS (R184, R185). -/
def Counters.zero : Counters :=
  { rxGood := 0, rxError := 0, rxStale := 0, rxNoroom := 0, collisions := 0, abandons := 0, replaysSent := 0,
    requestsSent := 0, dutyDrops := 0, lostSeqs := 0 }

/-- The read side's word pins: RD and RLAST as the last take left them (Table 11.8, Table 5.5). -/
structure ReadPins where
  rd : Word
  rlast : Bool
deriving DecidableEq, Repr

/-! ### The whole part -/

/-- The state of the part, and the queue of the commands that wait, first in first out (log entry 1). -/
structure State where
  store : Store
  contexts : Vector Context 32
  pool : TrackerPool
  duties : DutyPool
  delivery : Delivery
  submission : Submission
  sched : Scheduler
  trunk : Trunk
  station : StationControl
  control : Control
  events : Events
  counters : Counters
  out : ReadPins
  pending : List Instr
deriving DecidableEq, Repr

/-- The part in master reset, MRST asserted, before any release has sampled the straps (R161; straps and RD 0, log entries
7 and 8). -/
def State.reset : State :=
  { store := Store.purged
    contexts := contextsAtReset 0 0
    pool := TrackerPool.atReset
    duties := DutyPool.atReset
    delivery := Delivery.atReset
    submission := Submission.atReset 0
    sched := Scheduler.atReset
    trunk := Trunk.atReset
    station := StationControl.atReset 0 0 true
    control := Control.atReset
    events := Events.atReset
    counters := Counters.zero
    out := { rd := 0, rlast := false }
    pending := [] }

end Sys2Proof.Machine
end

