-- ==== Sys2Proof/Machine/Operands.lean ====
section
/-! DEFINITION. Reckoning with the part's numbers: serial comparison (0.6.3), rotation over the station numbers, the
splitting and joining of bytes and words (0.6.4), and the packing of fields into response words (11.4). -/

namespace Sys2Proof.Machine

/-- Sequence number `a` is after `b` (0.6.3). -/
def after (a b : SeqNum) : Bool := decide (1 ≤ (a - b).toNat) && decide ((a - b).toNat ≤ 32767)

/-- Epoch `e` is newer than `f` (0.6.3). -/
def newer (e f : Epoch) : Bool := decide (1 ≤ (e - f).toNat) && decide ((e - f).toNat ≤ 127)

/-- The later of two sequence numbers (0.6.3). -/
def later (a b : SeqNum) : SeqNum := if after b a then b else a

/-- How far `n` lies forward of `start`, mod 65536: the offsets of R28. -/
def offset (start n : SeqNum) : Nat := (n - start).toNat

/-- "The larger of 0 and `n` − `k`" as 0.6.3 reads it. -/
def largerOfZero (n : SeqNum) (k : Nat) : SeqNum := if n.toNat < k then 0 else n - BitVec.ofNat 16 k

/-- The 32 station numbers upward mod 32 from the one after `n`, `n` itself last (R55, R93). -/
def rotation (n : Station) : List Station := (List.range 32).map fun i => n + BitVec.ofNat 5 (i + 1)

/-- The distance from station `b` up to station `a`, mod 32 (R57, R79). -/
def distance (a b : Station) : Nat := (a - b).toNat

/-- The byte in the high half of a word (0.6.4). -/
def hiByte (w : Word) : Byte := w.extractLsb' 8 8

/-- The byte in the low half of a word (0.6.4). -/
def loByte (w : Word) : Byte := w.extractLsb' 0 8

/-- Two bytes in one word, the first in the high half (0.6.4). -/
def joinBytes (hi lo : Byte) : Word := hi ++ lo

/-- The `width` low bits of `v`, placed with bit 0 at bit `low` of a word (11.4). -/
def bitField (width low v : Nat) : Nat := (v % 2 ^ width) * 2 ^ low

/-- A word made of fields that do not overlap (11.4). -/
def packWord (fields : List Nat) : Word := BitVec.ofNat 16 fields.sum

/-- A flag as a number. -/
def flagBit (b : Bool) : Nat := if b then 1 else 0

/-- A 16-bit count raised by `n`, stopping at 65535 (0.6.4, R184). -/
def satAdd (c : Word) (n : Nat) : Word := BitVec.ofNat 16 (min (c.toNat + n) 65535)

/-- The numbers of the trackers, in order (R50). -/
def allTrackers : List (Fin 8) := List.finRange 8

/-- The numbers of the duties, in order (R73). -/
def allDuties : List (Fin 16) := List.finRange 16

/-- The station numbers, in order (R23). -/
def allStations : List Station := (List.range 32).map (BitVec.ofNat 5)

end Sys2Proof.Machine
end

