-- ==== Sys2Proof/Machine/Ops.lean ====
section
/-! DEFINITION. The named reads and updates of the state that every other file goes through: one replacement per block,
one read and one write per record of a table. -/

namespace Sys2Proof.Machine

/-! ### One replacement per block -/

def State.withStore (s : State) (x : Store) : State := { s with store := x }
def State.withContexts (s : State) (x : Vector Context 32) : State := { s with contexts := x }
def State.withPool (s : State) (x : TrackerPool) : State := { s with pool := x }
def State.withDuties (s : State) (x : DutyPool) : State := { s with duties := x }
def State.withDelivery (s : State) (x : Delivery) : State := { s with delivery := x }
def State.withSubmission (s : State) (x : Submission) : State := { s with submission := x }
def State.withSched (s : State) (x : Scheduler) : State := { s with sched := x }
def State.withTrunk (s : State) (x : Trunk) : State := { s with trunk := x }
def State.withStation (s : State) (x : StationControl) : State := { s with station := x }
def State.withControl (s : State) (x : Control) : State := { s with control := x }
def State.withEvents (s : State) (x : Events) : State := { s with events := x }
def State.withCounters (s : State) (x : Counters) : State := { s with counters := x }
def State.withOut (s : State) (x : ReadPins) : State := { s with out := x }
def State.withPending (s : State) (x : List Instr) : State := { s with pending := x }

/-! ### Short names for what many rules read -/

/-- The own station number (R160). -/
def State.stn (s : State) : Station := s.station.stn

/-- The setup record (R163). -/
def State.setup (s : State) : Setup := s.station.setup

/-- The station is ACTIVE (R159). -/
def State.isActive (s : State) : Bool := s.station.state == .active

/-- The station state is entered; nothing else follows here (R159). -/
def State.setStationState (s : State) (x : StationState) : State := s.withStation { s.station with state := x }

/-! ### Records of the tables -/

/-- The context of station `n` (R23). -/
def State.ctx (s : State) (n : Station) : Context := s.contexts[n.toNat]'n.isLt

/-- The context of station `n` becomes `c`. -/
def State.setCtx (s : State) (n : Station) (c : Context) : State := s.withContexts (s.contexts.set n.toNat c n.isLt)

/-- Tracker `t` (R50). -/
def State.tracker (s : State) (t : Fin 8) : Tracker := s.pool.trackers[t.val]

/-- Tracker `t` becomes `x`. -/
def State.setTracker (s : State) (t : Fin 8) (x : Tracker) : State :=
  s.withPool { s.pool with trackers := s.pool.trackers.set t.val x t.isLt }

/-- The request list becomes `l` (R58). -/
def State.setRequests (s : State) (l : List Request) : State := s.withPool { s.pool with requests := l }

/-- Duty `d`, `none` when free (R73). -/
def State.duty (s : State) (d : Fin 16) : Option Duty := s.duties.slots[d.val]

/-- Duty `d` becomes `x`. -/
def State.setDuty (s : State) (d : Fin 16) (x : Option Duty) : State :=
  s.withDuties { s.duties with slots := s.duties.slots.set d.val x d.isLt }

/-- The eligible order becomes `l` (R74). -/
def State.setEligible (s : State) (l : List (Fin 16)) : State := s.withDuties { s.duties with eligible := l }

end Sys2Proof.Machine
end

