-- ==== Sys2Proof/Machine/Line.lean ====
section
/-! DEFINITION. The trunk as the Trunk Interface sees it: line coding (8.1), the frame on the line with its check (8.2, 11.1),
the receive path cell by cell (8.4), and the decision on a burst (Table 8.4). -/

namespace Sys2Proof.Machine

/-! ### Line coding (R145, Table 8.1) -/

/-- The levels of the two halves of a cell that a driver sends after a cell that ended at level `prev`: a 1 rises at the
middle, a 0 falls, a violation cell changes level at its boundary alone (Table 8.1). -/
def BurstCell.drive (prev : Bool) : BurstCell → Bool × Bool
  | .data b => (!b, b)
  | .violation => (!prev, !prev)

/-- The kind of a cell read from its two levels after a cell that ended at level `prev`; `none` is the silent cell (R145). -/
def readCell (prev : Bool) (levels : Bool × Bool) : Option BurstCell :=
  if levels.1 != levels.2 then some (.data levels.2)
  else if levels.1 != prev then some .violation
  else none

/-- The mid-cell transition of a cell read from the line: its direction, rising being 1; `none` where there is none, in a
violation cell and in a silent cell (Table 8.1). -/
def midCell : Option BurstCell → Option Bool
  | some (.data b) => some b
  | some .violation => none
  | none => none

/-- What a read-back has come to (R149, R150). -/
inductive ReadBack where
  /-- every cell so far is the cell sent, and there are cells still to be sent -/
  | unfinished
  /-- the last cell has been read back without mismatch -/
  | ended
  /-- a cell differs from the cell sent -/
  | mismatch
deriving DecidableEq, Repr

/-- The read-back of the cells sent against the cells read, in their order: the presence of the mid-cell transition and its
direction are compared (R150). Nothing is read back after the last cell sent or after a mismatch. -/
def readBack : List BurstCell → List (Option BurstCell) → ReadBack
  | [], _ => .ended
  | _ :: _, [] => .unfinished
  | c :: sent, r :: read => if midCell r = midCell (some c) then readBack sent read else .mismatch

/-! ### Bits and check -/

/-- The bits of a byte, most significant first (R147). -/
def bitsOfByte (b : Byte) : List Bool :=
  [b.getLsbD 7, b.getLsbD 6, b.getLsbD 5, b.getLsbD 4, b.getLsbD 3, b.getLsbD 2, b.getLsbD 1, b.getLsbD 0]

/-- The byte whose bits, least significant first, are these. -/
def byteOfBits (bits : List Bool) : Byte := BitVec.ofNat 8 (bits.foldr (fun b n => 2 * n + b.toNat) 0)

/-- One bit through the check register: the generator x^16 + x^12 + x^5 + 1 (R148). -/
def checkBit (c : BitVec 16) (b : Bool) : BitVec 16 :=
  if c.msb != b then (c <<< 1) ^^^ 0x1021#16 else c <<< 1

/-- The check over the bytes from the kind byte through the last body byte (R148). -/
def frameCheck (bs : List Byte) : BitVec 16 := (bs.flatMap bitsOfByte).foldl checkBit 0xFFFF#16

/-! ### Frames (R186, Table 11.1) -/

/-- The frames of the trunk, with the fields of Table 11.1. -/
inductive Frame where
  | data (origin : Station) (epoch : Epoch) (seq : SeqNum) (payload : List Byte)
  | replay (origin : Station) (epoch : Epoch) (seq : SeqNum) (replayer : Station) (payload : List Byte)
  | gapreq (requester origin : Station) (epoch : Epoch) (first : SeqNum) (count : Nat)
  | beacon (sender : Station) (epoch : Epoch) (nextSeq : SeqNum)
deriving DecidableEq, Repr

/-- The sender field of the clash test (R155). -/
def Frame.sender : Frame → Station
  | .data origin _ _ _ => origin
  | .replay _ _ _ replayer _ => replayer
  | .gapreq requester _ _ _ _ => requester
  | .beacon sender _ _ => sender

/-- The field values a frame may carry: a length of 1 to 120, a count of 1 to 8 (R186). -/
def Frame.wf : Frame → Bool
  | .data _ _ _ payload => decide (1 ≤ payload.length) && decide (payload.length ≤ Config.maxPayload)
  | .replay _ _ _ _ payload => decide (1 ≤ payload.length) && decide (payload.length ≤ Config.maxPayload)
  | .gapreq _ _ _ _ count => decide (1 ≤ count) && decide (count ≤ Config.maxRun)
  | .beacon _ _ _ => true

/-- A station number in its byte (R186). -/
def stationByte (n : Station) : Byte := n.setWidth 8

/-- The frame body, from the kind byte to the last field or payload byte (Table 11.1). -/
def Frame.body : Frame → List Byte
  | .data origin epoch seq payload =>
    [0x31#8, stationByte origin, epoch, hiByte seq, loByte seq, BitVec.ofNat 8 payload.length] ++ payload
  | .replay origin epoch seq replayer payload =>
    [0x32#8, stationByte origin, epoch, hiByte seq, loByte seq, stationByte replayer, BitVec.ofNat 8 payload.length]
      ++ payload
  | .gapreq requester origin epoch first count =>
    [0x33#8, stationByte requester, stationByte origin, epoch, hiByte first, loByte first, BitVec.ofNat 8 count]
  | .beacon sender epoch nextSeq => [0x34#8, stationByte sender, epoch, hiByte nextSeq, loByte nextSeq]

/-- The body and its check, high byte first (R147). -/
def Frame.bytes (f : Frame) : List Byte := f.body ++ [hiByte (frameCheck f.body), loByte (frameCheck f.body)]

/-- The start delimiter byte (R147). -/
def delimiter : Byte := 0x5E#8

/-- The cells of a frame on the line: preamble, start delimiter, the bytes, each most significant bit first (R147). -/
def lineCells (bs : List Byte) : List BurstCell :=
  ([true, false, true, false, true, false, true, false] ++ bitsOfByte delimiter ++ bs.flatMap bitsOfByte).map
    BurstCell.data

/-- The cells of a jam (R145, R150). -/
def jam : List BurstCell := List.replicate Config.jamCells BurstCell.violation

/-! ### The receive path cell by cell (R152, R153) -/

/-- A cell in HUNT or ASSEMBLE. A data cell after a violation run of fewer than 16 cells marks the frame damaged, and the burst is
followed to its end. That this holds before the delimiter too, which is sought no more then, is read from R152, which says it of
HUNT and ASSEMBLE, where Table 8.4 has a run after the delimiter (log entry 24). -/
def RxPath.follow (rx : RxPath) : BurstCell → RxPath
  | .violation =>
    if Config.jamCells ≤ rx.violations + 1 then RxPath.at .skip else { rx with violations := rx.violations + 1 }
  | .data b =>
    if rx.damaged || rx.violations != 0 then { rx with damaged := true, violations := 0 }
    else if rx.path == .hunt then
      let last := (b :: rx.lastBits).take 8
      if last = (bitsOfByte delimiter).reverse then RxPath.at .assemble else { rx with lastBits := last }
    else if Config.maxFrame ≤ rx.bytes.length then { rx with overLong := true }
    else
      let bits := b :: rx.byteBits
      if bits.length = 8 then { rx with bytes := rx.bytes ++ [byteOfBits bits], byteBits := [] }
      else { rx with byteBits := bits }

/-- A cell at the receive path in any state (Table 8.3). The first cell of a burst takes WAITING to HUNT; OFF, OWN and SKIP
do not assemble. -/
def RxPath.cell (rx : RxPath) (c : BurstCell) : RxPath :=
  match rx.path with
  | .off => rx
  | .own => rx
  | .skip => rx
  | .waiting => (RxPath.at .hunt).follow c
  | .hunt => rx.follow c
  | .assemble => rx.follow c

/-- The cells of a burst, in their order. -/
def RxPath.cells (rx : RxPath) (cs : List BurstCell) : RxPath := cs.foldl RxPath.cell rx

/-! ### The decision at the silent cell (R154, Table 8.4) -/

/-- The causes of a frame error (Table 8.4). -/
inductive Cause where
  | noDelimiter
  | idleMidFrame
  | damaged
  | overLong
  | tooShort
  | badCheck
  | unknownKind
  | lengthOutOfRange
  | byteCount
  | stationOutOfRange
  | countOutOfRange
deriving DecidableEq, Repr

/-- Byte `i` of the frame, 0 where there is none. -/
def byteAt (bs : List Byte) (i : Nat) : Byte := bs.getD i 0

/-- Two bytes as a 16-bit field, high byte first (R186). -/
def wordAt (bs : List Byte) (i : Nat) : Word := joinBytes (byteAt bs i) (byteAt bs (i + 1))

/-- The frame length that Table 8.2 gives for the kind byte and the length field; `none` for an unknown kind. -/
def frameLength (bs : List Byte) : Option Nat :=
  let kind := byteAt bs 0
  if kind = 0x31#8 then some (8 + (byteAt bs 5).toNat)
  else if kind = 0x32#8 then some (9 + (byteAt bs 6).toNat)
  else if kind = 0x33#8 then some 9
  else if kind = 0x34#8 then some 7
  else none

/-- The places of the station number fields of a kind (Table 11.1). -/
def stationFields (kind : Byte) : List Nat :=
  if kind = 0x31#8 then [1]
  else if kind = 0x32#8 then [1, 5]
  else if kind = 0x33#8 then [1, 2]
  else if kind = 0x34#8 then [1]
  else []

/-- The place of the length field of a kind that has one (Table 11.1). -/
def lengthField (kind : Byte) : Option Nat :=
  if kind = 0x31#8 then some 5 else if kind = 0x32#8 then some 6 else none

/-- Whether a cause of Table 8.4 holds of what the path has taken when the silent cell comes. -/
def RxPath.hasCause (rx : RxPath) : Cause → Bool
  | .noDelimiter => rx.path == .hunt
  | .idleMidFrame =>
    !rx.byteBits.isEmpty ||
      match frameLength rx.bytes with
      | some n => decide (rx.bytes.length < n)
      | none => false
  | .damaged => rx.damaged || rx.violations != 0
  | .overLong => rx.overLong
  | .tooShort => decide (rx.bytes.length < 3)
  | .badCheck =>
    frameCheck (rx.bytes.take (rx.bytes.length - 2)) != wordAt rx.bytes (rx.bytes.length - 2)
  | .unknownKind => (frameLength rx.bytes).isNone
  | .lengthOutOfRange =>
    match lengthField (byteAt rx.bytes 0) with
    | some i => byteAt rx.bytes i == 0 || decide (Config.maxPayload < (byteAt rx.bytes i).toNat)
    | none => false
  | .byteCount =>
    match frameLength rx.bytes with
    | some n => rx.bytes.length != n
    | none => false
  | .stationOutOfRange => (stationFields (byteAt rx.bytes 0)).any fun i => decide (31 < (byteAt rx.bytes i).toNat)
  | .countOutOfRange =>
    byteAt rx.bytes 0 == 0x33#8 &&
      (byteAt rx.bytes 6 == 0 || decide (Config.maxRun < (byteAt rx.bytes 6).toNat))

/-- The causes of Table 8.4, in its order. -/
def allCauses : List Cause :=
  [.noDelimiter, .idleMidFrame, .damaged, .overLong, .tooShort, .badCheck, .unknownKind, .lengthOutOfRange, .byteCount,
    .stationOutOfRange, .countOutOfRange]

/-- A station number field (R186). -/
def stationAt (bs : List Byte) (i : Nat) : Station := (byteAt bs i).setWidth 5

/-- The fields of a frame whose bytes pass every test, read from the places of Table 11.1. -/
def readFrame (bs : List Byte) : Frame :=
  let kind := byteAt bs 0
  if kind = 0x31#8 then
    .data (stationAt bs 1) (byteAt bs 2) (wordAt bs 3) ((bs.drop 6).take (byteAt bs 5).toNat)
  else if kind = 0x32#8 then
    .replay (stationAt bs 1) (byteAt bs 2) (wordAt bs 3) (stationAt bs 5) ((bs.drop 7).take (byteAt bs 6).toNat)
  else if kind = 0x33#8 then
    .gapreq (stationAt bs 1) (stationAt bs 2) (byteAt bs 3) (wordAt bs 4) (byteAt bs 6).toNat
  else .beacon (stationAt bs 1) (byteAt bs 2) (wordAt bs 3)

/-- What a burst is found to be at the silent cell that ends it (R154). -/
inductive Decision where
  /-- the path was ignoring the line, or took no burst -/
  | ignored
  /-- one or more causes of Table 8.4 hold -/
  | error
  /-- a good frame -/
  | good (f : Frame)
deriving DecidableEq, Repr

/-- The decision (R154). -/
def RxPath.decide (rx : RxPath) : Decision :=
  if rx.path == .hunt || rx.path == .assemble then
    if allCauses.any rx.hasCause then .error else .good (readFrame rx.bytes)
  else .ignored

end Sys2Proof.Machine
end

