-- ==== Sys2Proof/WellFormed.lean ====
section
/-! DEFINITION. Which commands are well formed: those whose operands are what their row speaks of. A burst's row must carry
a burst that is what the row names, taken from its first cell on; whether its sender is the own number is for the station
to find (R155). The cells read back at a frame end are those of a whole frame, and at a collision they hold at least the cell
that differs; whether they are the cells sent is for the read-back to find (R150). Every word is a well-formed word of its
channel. -/

namespace Sys2Proof

open Sys2Proof.Machine

/-- What a burst with these cells is found to be by a receive path that takes it from its first cell. -/
def decisionOn (cells : List BurstCell) : Decision := ((RxPath.at .waiting).cells cells).decide

/-- The burst has reached its sixteenth consecutive violation cell (R153). -/
def isFragment (cells : List BurstCell) : Bool := ((RxPath.at .waiting).cells cells).path == .skip

/-- The cells read back are data cells alone and those of a whole frame (R149). -/
def isWholeFrame (read : List (Option BurstCell)) : Bool :=
  match read.mapM id with
  | some cells => match decisionOn cells with | .good _ => true | .ignored => false | .error => false
  | none => false

/-- Well-formedness of a command. -/
def WellFormed : Instr → Bool
  | .masterReset => true
  | .mrstRelease _ _ => true
  | .partialReset => true
  | .dataWord _ _ => true
  | .controlWord _ _ => true
  | .set _ _ => true
  | .join => true
  | .leave => true
  | .recover => true
  | .status => true
  | .readContext _ => true
  | .readCounters => true
  | .clearCounters => true
  | .readEvents => true
  | .ackEvents _ => true
  | .setEventMask _ => true
  | .setEventPriority _ => true
  | .discardHead => true
  | .deliveryTake => true
  | .responseTake => true
  | .deliveryTurn => true
  | .lineActivity => true
  | .lineIdle => true
  | .selectionCommit => true
  | .holdoffRunsOut => true
  | .frameEnd read => isWholeFrame read
  | .collision read => !read.isEmpty
  | .jamEnd => true
  | .fragment cells => isFragment cells
  | .frameError cells => match decisionOn cells with | .error => true | .ignored => false | .good _ => false
  | .clash cells => match decisionOn cells with | .good _ => true | .ignored => false | .error => false
  | .rxData cells => match decisionOn cells with | .good (.data _ _ _ _) => true | _ => false
  | .rxReplay cells => match decisionOn cells with | .good (.replay _ _ _ _ _) => true | _ => false
  | .rxGapreq cells => match decisionOn cells with | .good (.gapreq _ _ _ _ _) => true | _ => false
  | .rxBeacon cells => match decisionOn cells with | .good (.beacon _ _ _) => true | _ => false
  | .requestDelayRunsOut _ => true
  | .repairTimeoutRunsOut _ => true
  | .replayDelayRunsOut duties => !duties.isEmpty && decide duties.Nodup
  | .beaconTimerRunsOut => true
  | .listenTimerRunsOut => true
  | .silenceTimerRunsOut _ => true
  | .silentCellEndsSkip => true

end Sys2Proof
end

