-- ==== Sys2Proof/Decode.lean ====
section
/-! DEFINITION. The commands that a word spells by the bits of spec/opcode_table.json. The table gives no row any bits: a
command is a happening, and the words of the host port are operands of DATA_WORD and CONTROL_WORD. So no word spells a
command. (The words and frames of chapter 11 are read and written in Machine/Line.lean and Machine/Control.lean.) -/

namespace Sys2Proof

/-- The command that the word `w` of `nbits` bits spells by the table's bits: none, as the table gives none. -/
def decodeTableWord (_nbits _w : Nat) : Option Instr := none

end Sys2Proof
end

