-- ==== Sys2Proof/Machine/Store.lean ====
section
/-! DEFINITION. The claims of the Retention Store (Table 1.10), each taken whole, as functions of the store, the own station
number and OWN_SHARE. The reports that a claim may bring are made by State.applyStore (Trackers.lean). -/

namespace Sys2Proof.Machine

/-! ### Pins (R5) -/

def Pins.none : Pins := { due := false, handed := false, tx := false }
def Pins.onlyDue : Pins := { due := true, handed := false, tx := false }

/-- The entry carries no pin. -/
def Pins.isEmpty (p : Pins) : Bool := !p.due && !p.handed && !p.tx

/-! ### Index and counts -/

/-- The entry the key index maps `k` to (R4). -/
def Store.find (st : Store) (k : Key) : Option Entry := (st.own ++ st.peer).find? fun e => decide (e.key = k)

/-- The shares (R1). -/
inductive Share where
  | own
  | peer
deriving DecidableEq, Repr

/-- The share that holds the entry of key `k`, when one does (R1, R4). -/
def Store.shareOf (st : Store) (k : Key) : Share := if st.own.any (fun e => decide (e.key = k)) then .own else .peer

/-- The answer to a lookup (R19). -/
inductive Lookup where
  | absent
  | present (length : Nat) (share : Share) (pins : Pins)
deriving DecidableEq, Repr

/-- The lookup claim (R19). -/
def Store.lookup (st : Store) (k : Key) : Lookup :=
  match st.find k with
  | none => .absent
  | some e => .present e.payload.length (st.shareOf k) e.pins

/-- The key is present (R4). -/
def Store.present (st : Store) (k : Key) : Bool :=
  match st.lookup k with
  | .present _ _ _ => true
  | .absent => false

/-- HELD cells of a share whose entries carry no pin (R6). -/
def unpinned (es : List Entry) : Nat := es.countP fun e => e.pins.isEmpty

/-- Cells RESERVED: at most one (R2). -/
def Store.reservedCells (st : Store) : Nat := if st.reserved.isSome then 1 else 0

/-- FREE cells of the own share (R6). -/
def Store.ownFree (ownShare : Nat) (st : Store) : Nat := ownShare - st.own.length - st.reservedCells

/-- FREE cells of the peer share (R1, R6). -/
def Store.peerFree (ownShare : Nat) (st : Store) : Nat := Config.cells - ownShare - st.peer.length

/-- Claimable cells of the own share (R6). -/
def Store.ownClaimable (ownShare : Nat) (st : Store) : Nat := st.ownFree ownShare + unpinned st.own

/-- Claimable cells of the peer share (R6). -/
def Store.peerClaimable (ownShare : Nat) (st : Store) : Nat := st.peerFree ownShare + unpinned st.peer

/-- The peer-exhausted indicator (R20). -/
def Store.peerExhausted (ownShare : Nat) (st : Store) : Bool := st.peerClaimable ownShare == 0

/-! ### Placement and eviction (R7, R10) -/

/-- The oldest entry without a pin, and the age order without it; the older pinned ones are passed over (R7). -/
def evictOldest : List Entry → Option (Entry × List Entry)
  | [] => none
  | e :: es =>
    if e.pins.isEmpty then some (e, es)
    else match evictOldest es with
      | some (v, rest) => some (v, e :: rest)
      | none => none

/-- The answer to an insert (R8). PRESENT carries the pin set of the held entry (R9); STORED names the key evicted, if one
was (R10). -/
inductive InsertAnswer where
  | present (held : Pins)
  | stored (evicted : Option Key)
  | refused
deriving DecidableEq, Repr

/-- Placing an entry in a share with `free` FREE cells (R10, R11). -/
def placeEntry (free : Nat) (es : List Entry) (e : Entry) : InsertAnswer × List Entry :=
  if 0 < free then (.stored none, es ++ [e])
  else match evictOldest es with
    | some (v, rest) => (.stored (some v.key), rest ++ [e])
    | none => (.refused, es)

/-- The insert claim (R8 to R11). The store decides the share from the origin (R1). -/
def Store.insert (stn : Station) (ownShare : Nat) (st : Store) (e : Entry) : InsertAnswer × Store :=
  match st.find e.key with
  | some held => (.present held.pins, st)
  | none =>
    if e.key.origin = stn then
      let r := placeEntry (st.ownFree ownShare) st.own e
      (r.1, { st with own := r.2 })
    else
      let r := placeEntry (st.peerFree ownShare) st.peer e
      (r.1, { st with peer := r.2 })

/-! ### Reservation, completion, release (R13, R14) -/

/-- The reservation claim: the store with a cell RESERVED, `none` when it is REFUSED (R13). -/
def Store.reserve (ownShare : Nat) (st : Store) : Option Store :=
  if st.reserved.isSome then none
  else if 0 < st.ownFree ownShare then some { st with reserved := some [] }
  else match evictOldest st.own with
    | some (_, rest) => some { st with own := rest, reserved := some [] }
    | none => none

/-- The Submission Unit writes payload bytes into the RESERVED cell (R13). -/
def Store.writeReserved (st : Store) (bs : List Byte) : Store :=
  { st with reserved := st.reserved.map fun old => old ++ bs }

/-- The answer to a completion (R14). -/
inductive CompletionAnswer where
  | stored
  | present
  | noneReserved
deriving DecidableEq, Repr

/-- The completion claim (R14). -/
def Store.complete (st : Store) (k : Key) (pins : Pins) : CompletionAnswer × Store :=
  match st.reserved with
  | none => (.noneReserved, st)
  | some bytes =>
    if st.present k then (.present, { st with reserved := none })
    else (.stored, { st with own := st.own ++ [{ key := k, payload := bytes, pins := pins }], reserved := none })

/-- The answer to a release (R14). -/
inductive ReleaseAnswer where
  | released
  | noneReserved
deriving DecidableEq, Repr

/-- The release claim: the RESERVED cell becomes FREE (R14). -/
def Store.release (st : Store) : ReleaseAnswer × Store :=
  match st.reserved with
  | none => (.noneReserved, st)
  | some _ => (.released, { st with reserved := none })

/-! ### Pins of a present entry (R15 to R18) -/

/-- Every entry of both shares goes through `f`, in its place (R7: pins do not move an entry). -/
def Store.mapEntries (st : Store) (f : Entry → Entry) : Store := { st with own := st.own.map f, peer := st.peer.map f }

/-- The pins of the entry of key `k` go through `f`. -/
def Store.mapPins (st : Store) (k : Key) (f : Pins → Pins) : Store :=
  st.mapEntries fun e => if e.key = k then { e with pins := f e.pins } else e

/-- The answer to a conditional TX pin (R15). -/
inductive TxPinAnswer where
  | pinned
  | already
  | absent
deriving DecidableEq, Repr

/-- The conditional TX pin (R15). -/
def Store.pinTx (st : Store) (k : Key) : TxPinAnswer × Store :=
  match st.find k with
  | none => (.absent, st)
  | some e => if e.pins.tx then (.already, st) else (.pinned, st.mapPins k fun p => { p with tx := true })

/-- The answer to a hand claim (R16). -/
inductive HandAnswer where
  | handed
  | notDue
  | absent
deriving DecidableEq, Repr

/-- The hand claim: DUE becomes HANDED (R16). An entry that a restart release has taken DUE from is NOT_DUE (R17). -/
def Store.hand (st : Store) (k : Key) : HandAnswer × Store :=
  match st.find k with
  | none => (.absent, st)
  | some e =>
    if e.pins.due then (.handed, st.mapPins k fun p => { p with due := false, handed := true }) else (.notDue, st)

/-- The restart release: every entry of the origin and epoch loses DUE (R17). -/
def Store.restartRelease (st : Store) (origin : Station) (epoch : Epoch) : Store :=
  st.mapEntries fun e =>
    if e.key.origin = origin ∧ e.key.epoch = epoch then { e with pins := { e.pins with due := false } } else e

/-- The answer to a clear claim (R18). -/
inductive ClearAnswer where
  | cleared
  | notCarried
  | absent
deriving DecidableEq, Repr

/-- A clear claim: the pin that `carried` reads is removed by `remove` from the entry of key `k` (R18). -/
def Store.clearPin (st : Store) (k : Key) (carried : Pins → Bool) (remove : Pins → Pins) : ClearAnswer × Store :=
  match st.find k with
  | none => (.absent, st)
  | some e => if carried e.pins then (.cleared, st.mapPins k remove) else (.notCarried, st)

/-- The clear-HANDED claim (R18). -/
def Store.clearHanded (st : Store) (k : Key) : ClearAnswer × Store :=
  st.clearPin k (fun p => p.handed) fun p => { p with handed := false }

/-- The clear-TX claim (R18). -/
def Store.clearTx (st : Store) (k : Key) : ClearAnswer × Store :=
  st.clearPin k (fun p => p.tx) fun p => { p with tx := false }

/-! ### What the lookups are made for, and reads (R19) -/

/-- The key is present and its entry carries DUE: deliverable (R91). -/
def Store.deliverable (st : Store) (k : Key) : Bool :=
  match st.lookup k with
  | .present _ _ pins => pins.due
  | .absent => false

/-- The key is present and its entry carries no TX pin (R77). -/
def Store.heldWithoutTx (st : Store) (k : Key) : Bool :=
  match st.lookup k with
  | .present _ _ pins => !pins.tx
  | .absent => false

/-- The answer to a read (R19). -/
inductive ReadAnswer where
  | absent
  | bytes (length : Nat) (payload : List Byte)
deriving DecidableEq, Repr

/-- The read claim (R19). -/
def Store.read (st : Store) (k : Key) : ReadAnswer :=
  match st.find k with
  | some e => .bytes e.payload.length e.payload
  | none => .absent

/-- The length answered; ABSENT comes without bytes (R19). -/
def ReadAnswer.length : ReadAnswer → Nat
  | .absent => 0
  | .bytes length _ => length

/-- The payload answered; ABSENT comes without bytes (R19). -/
def ReadAnswer.payload : ReadAnswer → List Byte
  | .absent => []
  | .bytes _ payload => payload

/-- The first of `fuel` numbers from `n` whose key is absent (R25, R51). -/
def Store.firstAbsent (st : Store) (origin : Station) (epoch : Epoch) : Nat → SeqNum → Option SeqNum
  | 0, _ => none
  | fuel + 1, n =>
    if st.present { origin := origin, epoch := epoch, seq := n } then st.firstAbsent origin epoch fuel (n + 1)
    else some n

/-- How many of at most `fuel` numbers from `n` are absent one after another (R51). -/
def Store.countAbsent (st : Store) (origin : Station) (epoch : Epoch) : Nat → SeqNum → Nat
  | 0, _ => 0
  | fuel + 1, n =>
    if st.present { origin := origin, epoch := epoch, seq := n } then 0
    else st.countAbsent origin epoch fuel (n + 1) + 1

/-! ### The counts as the state has them -/

def State.ownFree (s : State) : Nat := s.store.ownFree s.setup.ownShare
def State.ownClaimable (s : State) : Nat := s.store.ownClaimable s.setup.ownShare
def State.peerFree (s : State) : Nat := s.store.peerFree s.setup.ownShare
def State.peerClaimable (s : State) : Nat := s.store.peerClaimable s.setup.ownShare
def State.peerExhausted (s : State) : Bool := s.store.peerExhausted s.setup.ownShare

end Sys2Proof.Machine
end

