-- ==== Sys2Proof/Machine/Flags.lean ====
section
/-! DEFINITION. Event flags, counters, and the lines that follow the state continuously (chapter 10, R103, R104, R111). -/

namespace Sys2Proof.Machine

/-- The eleven event flags (Table 10.4). -/
inductive Event where
  | loss
  | restart
  | silent
  | abandon
  | muted
  | clash
  | retentionFull
  | submitError
  | portMisuse
  | activeReached
  | rxError
deriving DecidableEq, Repr

/-- The bit position of a flag (Table 11.5). -/
def Event.position : Event → Nat
  | .loss => 0
  | .restart => 1
  | .silent => 2
  | .abandon => 3
  | .muted => 4
  | .clash => 5
  | .retentionFull => 6
  | .submitError => 7
  | .portMisuse => 8
  | .activeReached => 9
  | .rxError => 10

/-- The flag's bit alone. -/
def Event.bit (e : Event) : BitVec 11 := 1#11 <<< e.position

/-- The event is raised: its flag is set, whatever mask and priority (R182). -/
def State.raise (s : State) (e : Event) : State := s.withEvents { s.events with flags := s.events.flags ||| e.bit }

/-- The flag is set. -/
def State.isRaised (s : State) (e : Event) : Bool := s.events.flags.getLsbD e.position

/-- The ten counters (Table 10.5). -/
inductive Counter where
  | rxGood
  | rxError
  | rxStale
  | rxNoroom
  | collisions
  | abandons
  | replaysSent
  | requestsSent
  | dutyDrops
  | lostSeqs
deriving DecidableEq, Repr

/-- The counter increased by `n`, stopping at 65535 (R184). -/
def Counters.add (c : Counters) (n : Nat) : Counter → Counters
  | .rxGood => { c with rxGood := satAdd c.rxGood n }
  | .rxError => { c with rxError := satAdd c.rxError n }
  | .rxStale => { c with rxStale := satAdd c.rxStale n }
  | .rxNoroom => { c with rxNoroom := satAdd c.rxNoroom n }
  | .collisions => { c with collisions := satAdd c.collisions n }
  | .abandons => { c with abandons := satAdd c.abandons n }
  | .replaysSent => { c with replaysSent := satAdd c.replaysSent n }
  | .requestsSent => { c with requestsSent := satAdd c.requestsSent n }
  | .dutyDrops => { c with dutyDrops := satAdd c.dutyDrops n }
  | .lostSeqs => { c with lostSeqs := satAdd c.lostSeqs n }

/-- The ten counters in the order of Table 10.5 (R185). -/
def Counters.words (c : Counters) : List Word :=
  [c.rxGood, c.rxError, c.rxStale, c.rxNoroom, c.collisions, c.abandons, c.replaysSent, c.requestsSent, c.dutyDrops,
    c.lostSeqs]

/-- The counter is increased by `n` (R184). -/
def State.addCount (s : State) (c : Counter) (n : Nat) : State := s.withCounters (s.counters.add n c)

/-- "Is counted in" (0.6.5). -/
def State.count (s : State) (c : Counter) : State := s.addCount c 1

/-- ALERT_HI: some flag is set, unmasked and of high priority (R183). -/
def State.alertHi (s : State) : Bool := s.events.flags &&& ~~~s.events.mask &&& s.events.priority != 0

/-- ALERT_LO: some flag is set, unmasked and of low priority (R183). -/
def State.alertLo (s : State) : Bool := s.events.flags &&& ~~~s.events.mask &&& ~~~s.events.priority != 0

/-- RVAL (R103). -/
def State.rval (s : State) : Bool := decide (1 ≤ s.delivery.queue.length)

/-- DQ_AE (R104). -/
def State.dqAe (s : State) : Bool := decide (s.delivery.queue.length ≤ s.setup.dqAeLevel)

/-- DQ_AF (R104). -/
def State.dqAf (s : State) : Bool := decide (Config.deliverySize - s.setup.dqAfOffset ≤ s.delivery.queue.length)

/-- A message is in progress (Table 6.2). -/
def Submission.inProgress (u : Submission) : Bool := u.asm != .idle

/-- WRDY (R111). -/
def State.wrdy (s : State) : Bool :=
  s.station.state != .setup &&
    (s.submission.inProgress ||
      (decide (1 ≤ s.ownClaimable) && decide (s.submission.queue.length < Config.dataQueueSize)))

end Sys2Proof.Machine
end

