-- ==== Sys2Proof/Machine/Trackers.lean ====
section
/-! DEFINITION. The Repair Tracker Pool (chapter 3), the reports the Retention Store makes to it (1.9), and the withdrawal of a
commitment at the Scheduler (R131). -/

namespace Sys2Proof.Machine

/-! ### What the context gives a run (R24, R25) -/

/-- The window base (R24). -/
def Context.base (c : Context) : SeqNum := later c.nextDue c.lossFloor

/-- How many numbers [next-due, horizon] holds; the horizon is next-due − 1 at the least (R24). -/
def Context.extent (c : Context) : Nat :=
  if (c.horizon + 1 - c.nextDue).toNat ≤ 32768 then (c.horizon + 1 - c.nextDue).toNat else 0

/-- How many numbers [base, horizon] holds (R25). -/
def Context.missingSpan (c : Context) : Nat := c.extent - offset c.nextDue c.base

/-- A synchronised peer context (R23). -/
def Context.isSynced (c : Context) : Bool := c.state == .steady || c.state == .gapped

/-- The run computed from a context and the store; `none` is the empty run (R51). -/
def Store.run (st : Store) (origin : Station) (c : Context) : Option (SeqNum × Nat) :=
  match st.firstAbsent origin c.epoch c.missingSpan c.base with
  | none => none
  | some first =>
    some (first, st.countAbsent origin c.epoch (min Config.maxRun (c.missingSpan - offset c.base first)) first)

/-- The run of origin `o` as context and store stand (R51). -/
def State.runOf (s : State) (o : Station) : Option (SeqNum × Nat) := s.store.run o (s.ctx o)

/-! ### Withdrawal of a commitment (R131) -/

/-- When the Scheduler holds this duty as its commitment in HOLDOFF, the hold-off stops, the commitment is released and the
Scheduler is IDLE (R131). -/
def State.withdraw (s : State) (d : DutyRef) : State :=
  if s.sched.state = .holdoff ∧ s.sched.commitment.map (·.duty) = some d then
    s.withSched { s.sched with state := .idle, commitment := none, holdoff := none }
  else s

/-! ### Delays (R57, R60) -/

/-- The slots of a request delay for origin `o` (R57). -/
def State.requestDelay (s : State) (o : Station) : Nat := s.setup.reqBase + distance s.stn o

/-- A sequence number lies in an asked range (R52, R65). -/
def inRange (range : Option (SeqNum × Nat)) (n : SeqNum) : Bool :=
  match range with
  | none => false
  | some (first, count) => decide (offset first n < count)

/-- Attempts raised by one, staying at ATTEMPT_LIMIT (R60, R66). -/
def State.raiseAttempts (s : State) (n : Nat) : Nat := min (n + 1) (max n s.setup.attemptLimit)

/-! ### Claim, offer, freeing (R53 to R56) -/

/-- A GAPPED context with its tracker-held flag clear: a waiting origin (R54). -/
def State.waiting (s : State) (o : Station) : Bool := (s.ctx o).state == .gapped && !(s.ctx o).trackerHeld

/-- Tracker `t` is claimed for origin `o` (R54). A waiting origin's run is never empty (R25, R51). -/
def State.claim (s : State) (t : Fin 8) (o : Station) : State :=
  match s.runOf o with
  | none => s
  | some (first, count) =>
    (s.setTracker t
        { state := if s.peerExhausted then .parked else .delay
          origin := o
          epoch := (s.ctx o).epoch
          runFirst := first
          runCount := count
          attempts := 0
          timer := if s.peerExhausted then .stopped else .requestDelay (s.requestDelay o)
          marker := .none
          asked := none
          lastOrigin := o }).setCtx o { s.ctx o with trackerHeld := true }

/-- Tracker `t` is offered to the waiting origins in rotating order (R55). -/
def State.offer (s : State) (t : Fin 8) : State :=
  match (rotation (s.tracker t).lastOrigin).find? s.waiting with
  | some o => s.claim t o
  | none => s

/-- The tracker's entry leaves the request list (R58). -/
def State.dropRequest (s : State) (t : Fin 8) : State :=
  s.setRequests (s.pool.requests.filter fun r => r.tracker != t)

/-- The tracker-held flag of origin `o` is cleared (R44). -/
def State.clearHeld (s : State) (o : Station) : State := s.setCtx o { s.ctx o with trackerHeld := false }

/-- Freeing a tracker (R53). -/
def State.freeTracker (s : State) (t : Fin 8) : State :=
  if (s.tracker t).state = .free then s
  else
    let tr := s.tracker t
    let s1 := s.setTracker t { tr with state := .free, timer := .stopped, marker := .none, lastOrigin := tr.origin }
    let s2 := ((s1.dropRequest t).withdraw (.gapreq t)).clearHeld tr.origin
    if s2.isActive then s2.offer t else s2

/-- The tracker that serves origin `o` (R50). -/
def State.serving (s : State) (o : Station) : Option (Fin 8) :=
  allTrackers.find? fun t => (s.tracker t).state != .free && (s.tracker t).origin == o

/-- The lowest-numbered FREE tracker (R54). -/
def State.lowestFree (s : State) : Option (Fin 8) := allTrackers.find? fun t => (s.tracker t).state == .free

/-- In ACTIVE, a waiting origin claims the lowest FREE tracker when there is one (R54). -/
def State.claimIfWaiting (s : State) (o : Station) : State :=
  if s.isActive && s.waiting o then
    match s.lowestFree with
    | some t => s.claim t o
    | none => s
  else s

/-- The run of tracker `t` is recomputed after a change notice (R52). -/
def State.recompute (s : State) (t : Fin 8) : State :=
  let tr := s.tracker t
  match s.runOf tr.origin with
  | none => s.freeTracker t
  | some (first, count) =>
    if first = tr.runFirst then s.setTracker t { tr with runCount := count }
    else
      let tr1 := { tr with runFirst := first, runCount := count, attempts := 0 }
      if tr.state = .wait then
        if inRange tr.asked first then s.setTracker t { tr1 with timer := .repairTimeout s.setup.repairTimeout }
        else s.setTracker t { tr1 with state := .delay, timer := .requestDelay (s.requestDelay tr.origin) }
      else s.setTracker t tr1

/-- A change notice naming origin `o` (R52). -/
def State.changeNotice (s : State) (o : Station) : State :=
  match s.serving o with
  | some t => s.recompute t
  | none => s.claimIfWaiting o

/-- The restart notice of origin `o`: the tracker that serves it is freed (R70). -/
def State.restartNotice (s : State) (o : Station) : State :=
  match s.serving o with
  | some t => s.freeTracker t
  | none => s

/-- The offers at the entry to ACTIVE, in tracker-number order (R56). -/
def State.offerAll (s : State) : State := allTrackers.foldl State.offer s

/-- Every tracker that is not FREE is freed (R71). -/
def State.freeAllTrackers (s : State) : State := allTrackers.foldl State.freeTracker s

/-! ### The reports of the store (R20, R68, R69) -/

/-- A tracker under the exhausted report (R68). -/
def State.park (s : State) (t : Fin 8) : State :=
  let tr := s.tracker t
  if tr.state = .delay ∨ tr.state = .wait then
    let s1 := s.setTracker t
      { tr with state := .parked, timer := .stopped, marker := if tr.marker = .pending then .none else tr.marker }
    if tr.marker = .pending then (s1.dropRequest t).withdraw (.gapreq t) else s1
  else s

/-- A tracker under the claimable report (R69). -/
def State.resume (s : State) (t : Fin 8) : State :=
  let tr := s.tracker t
  if tr.state = .parked then
    s.setTracker t
      { tr with
        state := .delay
        timer := if tr.marker = .none then .requestDelay (s.requestDelay tr.origin) else .stopped }
  else s

/-- The exhausted report (R68). -/
def State.exhaustedReport (s : State) : State := allTrackers.foldl State.park s

/-- The claimable report (R69). -/
def State.claimableReport (s : State) : State := allTrackers.foldl State.resume s

/-- The report that a claim brings, when the peer share's claimable count stood at `old` before it (R20). -/
def State.reportFrom (s : State) (old : Nat) : State :=
  if old ≠ 0 ∧ s.peerClaimable = 0 then s.exhaustedReport
  else if old = 0 ∧ s.peerClaimable ≠ 0 then s.claimableReport
  else s

/-- A claim leaves the store as `st`, and the report it brings is made (R20). -/
def State.applyStore (s : State) (st : Store) : State := (s.withStore st).reportFrom s.peerClaimable

/-- The clear-TX claim (R18). -/
def State.clearTx (s : State) (k : Key) : State := s.applyStore (s.store.clearTx k).2

/-- The clear-HANDED claim (R18). -/
def State.clearHanded (s : State) (k : Key) : State := s.applyStore (s.store.clearHanded k).2

/-! ### Frames heard (R65 to R67) -/

/-- A heard REPLAY at tracker `t` (R65). -/
def State.hearReplayAt (k : Key) (s : State) (t : Fin 8) : State :=
  let tr := s.tracker t
  if tr.state = .wait ∧ tr.origin = k.origin ∧ tr.epoch = k.epoch ∧ inRange tr.asked k.seq then
    s.setTracker t { tr with timer := .repairTimeout s.setup.repairTimeout }
  else s

/-- A heard REPLAY at the pool (R65). -/
def State.hearReplay (s : State) (k : Key) : State := allTrackers.foldl (State.hearReplayAt k) s

/-- A heard GAPREQ covers a tracker's run first (R66). -/
def Tracker.coveredBy (tr : Tracker) (origin : Station) (epoch : Epoch) (first : SeqNum) (count : Nat) : Bool :=
  tr.origin == origin && tr.epoch == epoch && inRange (some (first, count)) tr.runFirst

/-- A heard GAPREQ at tracker `t`: suppression in DELAY (R66), a fresh timeout in WAIT (R67). The tracker is taken as it
stands when the frame is heard: one that a give-up freed and the same origin claimed anew is in DELAY, and a frame that covers
its new run first suppresses it, though R67 says of a give-up taken first that the frame changes nothing (log entry 20). -/
def State.hearGapreqAt (origin : Station) (epoch : Epoch) (first : SeqNum) (count : Nat) (s : State) (t : Fin 8) :
    State :=
  let tr := s.tracker t
  if tr.coveredBy origin epoch first count then
    if tr.state = .delay ∧ tr.marker ≠ .onWire then
      ((s.setTracker t
          { tr with
            state := .wait
            timer := .repairTimeout s.setup.repairTimeout
            marker := .none
            attempts := s.raiseAttempts tr.attempts
            asked := some (first, count) }).dropRequest t).withdraw (.gapreq t)
    else if tr.state = .wait then
      s.setTracker t { tr with timer := .repairTimeout s.setup.repairTimeout, asked := some (first, count) }
    else s
  else s

/-- A heard GAPREQ at the pool (R66, R67). -/
def State.hearGapreq (s : State) (origin : Station) (epoch : Epoch) (first : SeqNum) (count : Nat) : State :=
  allTrackers.foldl (State.hearGapreqAt origin epoch first count) s

/-! ### Take and outcomes of a request (R59 to R62, R68) -/

/-- The take: the marker becomes ON_WIRE and the asked range is recorded; `none` is WITHDRAWN (R59). -/
def State.takeRequest (s : State) (t : Fin 8) : Option State :=
  let tr := s.tracker t
  if tr.marker = .pending then
    some (s.setTracker t { tr with marker := .onWire, asked := some (tr.runFirst, tr.runCount) })
  else none

/-- The SENT outcome (R60, R62). -/
def State.requestSent (s : State) (t : Fin 8) : State :=
  let s1 := s.count .requestsSent
  let tr := s1.tracker t
  if tr.marker = .onWire then
    let tr1 := { tr with marker := .none, attempts := s1.raiseAttempts tr.attempts }
    let tr2 :=
      if tr.state = .delay then { tr1 with state := .wait, timer := .repairTimeout s1.setup.repairTimeout } else tr1
    (s1.setTracker t tr2).dropRequest t
  else s1

/-- The ABANDONED outcome (R61, R62). -/
def State.requestAbandoned (s : State) (t : Fin 8) : State :=
  let tr := s.tracker t
  if tr.marker = .onWire then
    let tr1 := { tr with marker := .none }
    let tr2 := if tr.state = .delay then { tr1 with timer := .requestDelay (s.requestDelay tr.origin) } else tr1
    (s.setTracker t tr2).dropRequest t
  else s

/-- A collision below the sixteenth: in DELAY the entry keeps its place with a raised count, in PARKED it leaves the list
(R58, R62, R68). -/
def State.requestCollided (s : State) (t : Fin 8) : State :=
  let tr := s.tracker t
  if tr.marker = .onWire then
    if tr.state = .parked then (s.setTracker t { tr with marker := .none }).dropRequest t
    else
      (s.setTracker t { tr with marker := .pending }).setRequests
        (s.pool.requests.map fun r => if r.tracker = t then { r with count := r.count + 1 } else r)
  else s

end Sys2Proof.Machine
end

