-- ==== Sys2Proof/Machine/Contexts.lean ====
section
/-! DEFINITION. The Origin Context Table (chapter 2): classification of peer frames, restart, beacons, the claims of trackers
and of the Delivery Engine, silence. -/

namespace Sys2Proof.Machine

/-- The state of a synchronised peer context decided afresh from its run: GAPPED when a number is missing (R25). -/
def State.decideState (s : State) (o : Station) : State :=
  if (s.ctx o).isSynced then
    s.setCtx o { s.ctx o with state := if (s.runOf o).isSome then .gapped else .steady }
  else s

/-- The end of a happening at context `o` that began with it in state `was`: the state is decided afresh (R25), and a
change notice is made when `must` holds or the context has passed between STEADY and GAPPED (R44). -/
def State.settle (s : State) (o : Station) (was : ContextState) (must : Bool) : State :=
  let s1 := s.decideState o
  if must || (s1.ctx o).state != was then s1.changeNotice o else s1

/-! ### The insert of a frame (R8, R10, R35) -/

/-- The context of an evicted key is told of the eviction (R10). -/
def State.toldOfEviction (s : State) (k : Key) : Bool :=
  (s.ctx k.origin).isSynced && (s.ctx k.origin).epoch == k.epoch &&
    decide (offset (s.ctx k.origin).nextDue k.seq < (s.ctx k.origin).extent)

/-- What the insert of a frame comes to at its context. -/
structure InsertResult where
  /-- the store's answer -/
  answer : InsertAnswer
  /-- an entry of this very context was evicted, and the context was told (R10) -/
  ownEviction : Bool
  /-- the state after the claim, with its reports and with the notice of another context's eviction -/
  after : State

/-- Another context than `o` is told of an eviction: it decides its state afresh and makes its change notice (R10, R25,
R44). -/
def State.tellEviction (s : State) (o : Station) (k : Key) : State :=
  if k.origin ≠ o ∧ s.toldOfEviction k then s.settle k.origin (s.ctx k.origin).state true else s

/-- The insert claim for a frame of origin `o`, with its eviction notice and its report (R8 to R11, R20). -/
def State.insertFrame (s : State) (o : Station) (e : Entry) : InsertResult :=
  let r := s.store.insert s.stn s.setup.ownShare e
  let s1 := s.withStore r.2
  match r.1 with
  | .present _ => { answer := r.1, ownEviction := false, after := s }
  | .refused => { answer := r.1, ownEviction := false, after := s }
  | .stored none => { answer := r.1, ownEviction := false, after := s1.reportFrom s.peerClaimable }
  | .stored (some k) =>
    { answer := r.1
      ownEviction := decide (k.origin = o) && s.toldOfEviction k
      after := (s1.tellEviction o k).reportFrom s.peerClaimable }

/-- What follows when an insert made with DUE is REFUSED (R35). -/
def State.refusedDue (s : State) : State := (s.count .rxNoroom).raise .retentionFull

/-- The RX_NOROOM count and RETENTION_FULL event when the answer is REFUSED (R35). -/
def State.afterDueInsert (s : State) (a : InsertAnswer) : State :=
  match a with
  | .refused => s.refusedDue
  | .present _ => s
  | .stored _ => s

/-- The answer is STORED. -/
def InsertAnswer.isStored : InsertAnswer → Bool
  | .stored _ => true
  | .present _ => false
  | .refused => false

/-- The answer is PRESENT: the frame is a duplicate (R31). -/
def InsertAnswer.isPresent : InsertAnswer → Bool
  | .present _ => true
  | .stored _ => false
  | .refused => false

/-! ### Classification (R28 to R34) -/

/-- A frame's fields as the context takes them: key and payload (R28). -/
structure Message where
  key : Key
  payload : List Byte
deriving DecidableEq, Repr

/-- The entry a frame is inserted as. -/
def Message.entry (m : Message) (pins : Pins) : Entry := { key := m.key, payload := m.payload, pins := pins }

/-- The sync case (R29). A PRESENT answer leaves the synchronisation standing (log entry 10). -/
def State.syncFrame (s : State) (m : Message) : State :=
  let o := m.key.origin
  let n := m.key.seq
  let s1 := s.setCtx o
    { s.ctx o with state := .steady, epoch := m.key.epoch, nextDue := n, horizon := n, lossFloor := n }
  let r := s1.insertFrame o (m.entry Pins.onlyDue)
  (r.after.afterDueInsert r.answer).settle o .steady (r.answer.isStored || r.ownEviction)

/-- The behind case (R32). Its own insert changes no context field. When it evicts an entry of this very context, the context is
told of the eviction and decides its state afresh, with a change notice (R10, R25, R44), though R32 says that the state is
unchanged in every outcome: the model's choice (log entry 23). -/
def State.behindFrame (s : State) (m : Message) : State :=
  let o := m.key.origin
  let r := s.insertFrame o (m.entry Pins.none)
  if r.ownEviction then r.after.settle o (s.ctx o).state true else r.after

/-- The in-window case (R33); PRESENT makes the frame a duplicate (R31). -/
def State.windowFrame (s : State) (m : Message) : State :=
  let o := m.key.origin
  let r := s.insertFrame o (m.entry Pins.onlyDue)
  if r.answer.isPresent then s
  else
    let s1 := r.after.afterDueInsert r.answer
    let c := s1.ctx o
    let horizon := later c.horizon m.key.seq
    (s1.setCtx o { c with horizon := horizon }).settle o (s.ctx o).state
      (r.answer.isStored || horizon != c.horizon || r.ownEviction)

/-- The far-ahead case (R34); PRESENT makes the frame a duplicate (R31). -/
def State.farFrame (s : State) (m : Message) : State :=
  let o := m.key.origin
  if s.store.present m.key then s
  else
    let s1 := s.setCtx o { s.ctx o with lossFloor := m.key.seq - 63, horizon := m.key.seq }
    let r := s1.insertFrame o (m.entry Pins.onlyDue)
    (r.after.afterDueInsert r.answer).settle o (s.ctx o).state true

/-! ### Restart (R37, R38) -/

/-- The restart fields of a context that takes a newer epoch (R37). -/
def Context.countRestart (c : Context) : Context :=
  if c.restartPending then { c with restartCount := satAdd c.restartCount (c.horizon + 1 - c.nextDue).toNat }
  else
    { c with restartPending := true, restartOldEpoch := c.epoch, restartCount := c.horizon + 1 - c.nextDue }

/-- The restart up to the new epoch's fields: the restart fields, the restart release of the old epoch, and the new epoch
with its next-due, horizon and floor (R37, R38). -/
def State.beginRestart (s : State) (o : Station) (epoch : Epoch) (nextDue horizon floor : SeqNum) : State :=
  let old := (s.ctx o).epoch
  let s1 := (s.setCtx o (s.ctx o).countRestart).applyStore (s.store.restartRelease o old)
  s1.setCtx o { s1.ctx o with epoch := epoch, nextDue := nextDue, horizon := horizon, lossFloor := floor }

/-- The end of a restart: the state decided afresh, the restart notice, the change notice (R38, R44). -/
def State.endRestart (s : State) (o : Station) : State := ((s.decideState o).restartNotice o).changeNotice o

/-- The restart case of a frame (R37, R38). -/
def State.restartFrame (s : State) (m : Message) : State :=
  let o := m.key.origin
  let n := m.key.seq
  let s1 :=
    if n.toNat ≤ 32767 then s.beginRestart o m.key.epoch 0 n (largerOfZero n 63) else s.beginRestart o m.key.epoch n n n
  let r := s1.insertFrame o (m.entry Pins.onlyDue)
  (r.after.afterDueInsert r.answer).endRestart o

/-- The classification of a DATA or REPLAY of a peer origin by the context of its origin (R28, Table 2.4). -/
def State.classify (s : State) (m : Message) : State :=
  let c := s.ctx m.key.origin
  let n := offset c.nextDue m.key.seq
  let w := offset c.nextDue c.base
  match c.state with
  | .own => s
  | .unsynced => s.syncFrame m
  | _ =>
    if newer m.key.epoch c.epoch then s.restartFrame m
    else if m.key.epoch ≠ c.epoch then s.count .rxStale
    else if 32768 ≤ n then s.behindFrame m
    else if n ≤ w + 63 then s.windowFrame m
    else s.farFrame m

/-! ### Beacons (R40, R41) -/

/-- A BEACON of a newer epoch (R37, R38, R41). -/
def State.restartBeacon (s : State) (o : Station) (epoch : Epoch) (nextSeq : SeqNum) : State :=
  let s1 :=
    if nextSeq.toNat ≤ 32768 then s.beginRestart o epoch 0 (nextSeq - 1) (largerOfZero nextSeq 64)
    else s.beginRestart o epoch nextSeq (nextSeq - 1) nextSeq
  s1.endRestart o

/-- A BEACON of the context's own epoch (R41). -/
def State.raiseByBeacon (s : State) (o : Station) (nextSeq : SeqNum) : State :=
  let c := s.ctx o
  let h := nextSeq - 1
  if offset c.nextDue h ≤ 32767 ∧ after h c.horizon then
    let floor := if offset c.nextDue c.base + 64 ≤ offset c.nextDue h then h - 63 else c.lossFloor
    (s.setCtx o { c with horizon := h, lossFloor := floor }).settle o c.state true
  else s

/-- A BEACON at the context of its sender (R40, R41). -/
def State.takeBeacon (s : State) (o : Station) (epoch : Epoch) (nextSeq : SeqNum) : State :=
  let c := s.ctx o
  match c.state with
  | .own => s
  | .unsynced =>
    s.setCtx o
      { c with state := .steady, epoch := epoch, nextDue := nextSeq, lossFloor := nextSeq, horizon := nextSeq - 1 }
  | _ =>
    if newer epoch c.epoch then s.restartBeacon o epoch nextSeq
    else if epoch = c.epoch then s.raiseByBeacon o nextSeq
    else s

/-! ### Claims on a context (R42, R43) -/

/-- The loss floor that a give-up up to `value` leaves (R42); distances are reckoned from next-due (0.6.3). -/
def Context.giveUpFloor (c : Context) (value : SeqNum) : SeqNum :=
  if after value c.lossFloor then
    let reach := min (offset c.nextDue value) (min c.extent 32767)
    if offset c.nextDue c.lossFloor < reach then c.nextDue + BitVec.ofNat 16 reach else c.lossFloor
  else c.lossFloor

/-- The give-up claim (R42). -/
def State.giveUp (s : State) (o : Station) (epoch : Epoch) (value : SeqNum) : State :=
  let c := s.ctx o
  if c.isSynced ∧ c.epoch = epoch ∧ c.giveUpFloor value ≠ c.lossFloor then
    (s.setCtx o { c with lossFloor := c.giveUpFloor value }).settle o c.state true
  else s

/-- Next-due moves on to `n`, and the floor with it when it is passed (R24, R43). -/
def Context.advanceTo (c : Context) (n : SeqNum) : Context := { c with nextDue := n, lossFloor := later n c.lossFloor }

/-- The advance claim that moves next-due to `n` (R43). -/
def State.advance (s : State) (o : Station) (n : SeqNum) : State :=
  let c := s.ctx o
  let s1 := s.setCtx o (c.advanceTo n)
  if c.isSynced then s1.settle o c.state true else s1

/-- The advance claim after a RESTART record (R43). -/
def State.advanceRestart (s : State) (o : Station) : State :=
  s.setCtx o { s.ctx o with restartPending := false, restartOldEpoch := 0, restartCount := 0 }

/-! ### Senders heard, silence (R27, R45, R46) -/

/-- The period of a silence timer (R45). -/
def State.silencePeriod (s : State) : Nat := 4 * s.setup.beaconInterval

/-- The sender of a good frame is heard (R45). -/
def State.heard (s : State) (n : Station) : State :=
  s.setCtx n { s.ctx n with heardSinceReset := true, silent := false, silenceTimer := some s.silencePeriod }

/-- Every silence timer stops, flags kept (R27). -/
def State.stopSilenceTimers (s : State) : State :=
  s.withContexts (s.contexts.map fun c => { c with silenceTimer := none })

/-- At JOIN from READY the silence timer of each context heard since the last reset starts with its full period (R27). -/
def State.startSilenceTimers (s : State) : State :=
  s.withContexts (s.contexts.map fun c =>
    if c.heardSinceReset then { c with silenceTimer := some s.silencePeriod } else c)

/-- SILENCE_TIMER_RUNS_OUT (R46). A stopped timer does not run out. -/
def execSilenceTimerRunsOut (n : Station) (s : State) : Host.Outcome State Fault Refusal :=
  if (s.ctx n).silenceTimer.isSome then
    .next ((s.setCtx n { s.ctx n with silent := true, silenceTimer := none }).raise .silent)
  else .next s

end Sys2Proof.Machine
end

