-- ==== Sys2Proof/Machine/Duties.lean ====
section
/-! DEFINITION. The Replay Duty Pool (chapter 4). -/

namespace Sys2Proof.Machine

/-! ### Making duties (R75 to R80) -/

/-- The lowest-numbered free duty (R76). -/
def State.lowestDuty (s : State) : Option (Fin 16) := allDuties.find? fun d => (s.duty d).isNone

/-- The replay delay of a duty for `k` made by a request of `requester` (R79). -/
def State.replayDelay (s : State) (k : Key) (requester : Station) : Nat :=
  if k.origin = s.stn then 0 else s.setup.repairBase + distance s.stn requester

/-- Duty `d` is put in use for `k`; a delay of 0 makes it ELIGIBLE at once (R76, R80). -/
def State.makeDuty (s : State) (d : Fin 16) (k : Key) (delay : Nat) : State :=
  if delay = 0 then
    (s.setDuty d (some { key := k, state := .eligible, timer := none, count := 0 })).setEligible
      (s.duties.eligible ++ [d])
  else s.setDuty d (some { key := k, state := .delay, timer := some delay, count := 0 })

/-- A key of a heard GAPREQ, examined while a free duty exists (R76) or none does (R77). -/
def State.examineKey (s : State) (requester : Station) (k : Key) : State :=
  match s.lowestDuty with
  | some d =>
    let r := s.store.pinTx k
    match r.1 with
    | .pinned => (s.applyStore r.2).makeDuty d k (s.replayDelay k requester)
    | .already => s
    | .absent => s
  | none => if s.store.heldWithoutTx k then s.count .dutyDrops else s

/-- The keys a GAPREQ asks for, in ascending order from first (R75). -/
def askedKeys (origin : Station) (epoch : Epoch) (first : SeqNum) (count : Nat) : List Key :=
  (List.range count).map fun i => { origin := origin, epoch := epoch, seq := first + BitVec.ofNat 16 i }

/-- A heard GAPREQ at the pool (R75). -/
def State.answerGapreq (s : State) (requester origin : Station) (epoch : Epoch) (first : SeqNum) (count : Nat) : State :=
  if s.isActive then (askedKeys origin epoch first count).foldl (fun s k => s.examineKey requester k) s else s

/-! ### Release of a duty -/

/-- The duty leaves the pool: it is free, it leaves the eligible order, and a commitment to it in hold-off is released
(R81, R87, R89). -/
def State.emptyDuty (s : State) (d : Fin 16) : State :=
  ((s.setDuty d none).setEligible (s.duties.eligible.filter fun x => x != d)).withdraw (.replay d)

/-- The duty leaves the pool and the clear-TX claim for its key is made (R84, R85, R87, R89). -/
def State.releaseDuty (s : State) (d : Fin 16) (k : Key) : State := (s.emptyDuty d).clearTx k

/-- A heard DATA or REPLAY of key `k` at duty `d` (R87). -/
def State.cancelDuty (k : Key) (s : State) (d : Fin 16) : State :=
  match s.duty d with
  | none => s
  | some x => if x.key = k ∧ x.state ≠ .sending then s.releaseDuty d k else s

/-- A heard DATA or REPLAY of key `k` at the pool (R87). -/
def State.cancelKey (s : State) (k : Key) : State := allDuties.foldl (State.cancelDuty k) s

/-- A duty dropped because the station leaves ACTIVE (R89). -/
def State.dropDuty (s : State) (d : Fin 16) : State :=
  match s.duty d with
  | none => s
  | some x => s.releaseDuty d x.key

/-- Every duty in use is dropped, in the order of the duty numbers (R89). -/
def State.dropDuties (s : State) : State := allDuties.foldl State.dropDuty s

/-! ### Take and outcomes (R82 to R86) -/

/-- The take: an ELIGIBLE duty goes to SENDING and answers its key; `none` is WITHDRAWN (R82). -/
def State.takeReplay (s : State) (d : Fin 16) : Option (Key × State) :=
  match s.duty d with
  | none => none
  | some x =>
    if x.state = .eligible then some (x.key, s.setDuty d (some { x with state := .sending })) else none

/-- A collision below the sixteenth (R83, R86). -/
def State.replayCollided (s : State) (d : Fin 16) : State :=
  match s.duty d with
  | none => s
  | some x =>
    if x.state = .sending then s.setDuty d (some { x with state := .eligible, count := x.count + 1 }) else s

/-- A SENDING duty ends (R84, R85); a duty that is not SENDING is not changed by an outcome (R86). -/
def State.replayEnded (s : State) (d : Fin 16) : State :=
  match s.duty d with
  | none => s
  | some x => if x.state = .sending then s.releaseDuty d x.key else s

/-- The SENT outcome (R84). -/
def State.replaySent (s : State) (d : Fin 16) : State := (s.count .replaysSent).replayEnded d

/-- The ABANDONED outcome (R85). -/
def State.replayAbandoned (s : State) (d : Fin 16) : State := s.replayEnded d

/-! ### Replay delays running out (R80) -/

/-- The sequence number from which duties running out together are reckoned, the serially first of them (R80): `start`, or each
later number that comes before the one found so far. That duties of different origins are reckoned together, from the first
number over all of them, is the model's choice (log entry 12). -/
def firstOf (start : SeqNum) (ns : List SeqNum) : SeqNum := ns.foldl (fun f n => if after f n then n else f) start

/-- A duty put before the duties whose numbers lie further from `first`. A duty whose number is already there, which is of
another origin or epoch, goes behind it, so that equal numbers stand in the order of the duty numbers: the model's choice (log
entry 12). -/
def insertByOffset (first : SeqNum) (x : Fin 16 × SeqNum) : List (Fin 16 × SeqNum) → List (Fin 16 × SeqNum)
  | [] => [x]
  | y :: ys =>
    if offset first x.2 < offset first y.2 then x :: y :: ys else y :: insertByOffset first x ys

/-- The duties in ascending serial order of their sequence numbers, reckoned from the first of them (R80). -/
def bySerialOrder (ds : List (Fin 16 × SeqNum)) : List (Fin 16 × SeqNum) :=
  match ds with
  | [] => []
  | d :: rest => ds.foldl (fun acc x => insertByOffset (firstOf d.2 (rest.map (·.2))) x acc) []

/-- The duty's sequence number when its replay delay runs. -/
def State.delayRuns (s : State) (d : Fin 16) : Option (Fin 16 × SeqNum) :=
  match s.duty d with
  | some x => if x.state = .delay ∧ x.timer.isSome then some (d, x.key.seq) else none
  | none => none

/-- A duty in DELAY becomes ELIGIBLE at the youngest end of the eligible order (R80). -/
def State.makeEligible (s : State) (d : Fin 16) : State :=
  match s.duty d with
  | none => s
  | some x =>
    (s.setDuty d (some { x with state := .eligible, timer := none })).setEligible (s.duties.eligible ++ [d])

/-- REPLAY_DELAY_RUNS_OUT for the duties that run out together (R80). A duty whose timer does not run is left as it is, and
a duty named twice runs out once. -/
def execReplayDelayRunsOut (duties : List (Fin 16)) (s : State) : Host.Outcome State Fault Refusal :=
  .next ((bySerialOrder ((allDuties.filter fun d => duties.contains d).filterMap s.delayRuns)).foldl
    (fun s x => s.makeEligible x.1) s)

/-! ### Tracker timers, which belong to the Repair Tracker Pool (chapter 3) -/

/-- REQUEST_DELAY_RUNS_OUT at tracker `t` (R57, R58). A stopped delay does not run out. -/
def execRequestDelayRunsOut (t : Fin 8) (s : State) : Host.Outcome State Fault Refusal :=
  match (s.tracker t).timer with
  | .requestDelay _ =>
    .next ((s.setTracker t { s.tracker t with timer := .stopped, marker := .pending }).setRequests
      (s.pool.requests ++ [{ tracker := t, count := 0 }]))
  | .repairTimeout _ => .next s
  | .stopped => .next s

/-- The give-up of tracker `t` (R64): the claim on the context, and the freeing of the tracker if the context's change
notice has not already freed it; a context still waiting claims a tracker when one is FREE (R54). -/
def State.giveUpRun (s : State) (t : Fin 8) : State :=
  let tr := s.tracker t
  let s1 := s.giveUp tr.origin tr.epoch (tr.runFirst + BitVec.ofNat 16 tr.runCount)
  let s2 := if (s1.tracker t).origin = tr.origin then s1.freeTracker t else s1
  s2.claimIfWaiting tr.origin

/-- REPAIR_TIMEOUT_RUNS_OUT at tracker `t` (R63, R64). A stopped timeout does not run out. -/
def execRepairTimeoutRunsOut (t : Fin 8) (s : State) : Host.Outcome State Fault Refusal :=
  match (s.tracker t).timer with
  | .repairTimeout _ =>
    if (s.tracker t).attempts < s.setup.attemptLimit then
      .next (s.setTracker t
        { s.tracker t with state := .delay, timer := .requestDelay (s.requestDelay (s.tracker t).origin) })
    else .next (s.giveUpRun t)
  | .requestDelay _ => .next s
  | .stopped => .next s

end Sys2Proof.Machine
end

