-- ==== Sys2Proof/Machine/Submission.lean ====
section
/-! DEFINITION. The Submission Unit (chapter 6). -/

namespace Sys2Proof.Machine

/-! ### Words on the data channel (R112 to R116) -/

/-- The assembly state is entered. -/
def State.setAsm (s : State) (a : AssemblyState) : State := s.withSubmission { s.submission with asm := a }

/-- IDLE after a word with WEND, DISCARDING after one without (R115). -/
def asmAfterReject (wend : Bool) : AssemblyState := if wend then .idle else .discarding

/-- Word 0 of a submission (R113). A reservation that is REFUSED, which WRDY rules out, leaves the unit IDLE (log entry 13). In
DISCARDING after a rejected word 0 the length, the expected words and the words taken, to which the manual gives no value
there, are those of the submission before (log entry 5). -/
def State.wordZero (s : State) (w : Word) (wend : Bool) : State :=
  if wend then s.raise .submitError
  else if w.toNat = 0 ∨ Config.maxPayload < w.toNat then (s.raise .submitError).setAsm .discarding
  else match s.store.reserve s.setup.ownShare with
    | some st =>
      (s.applyStore st).withSubmission
        { s.submission with asm := .assembling, length := w.toNat, expected := (w.toNat + 1) / 2, taken := 0 }
    | none => s

/-- The rejection of a submission in progress (R115). -/
def State.rejectSubmission (s : State) (wend : Bool) : State :=
  ((s.applyStore s.store.release.2).raise .submitError).setAsm (asmAfterReject wend)

/-- The payload bytes of the next payload word: the low byte of the last word of an odd length is dropped (R114). -/
def Submission.bytesOf (u : Submission) (w : Word) : List Byte :=
  if u.taken + 1 = u.expected ∧ u.length % 2 = 1 then [hiByte w] else [hiByte w, loByte w]

/-- The key the next completed message takes (R116, R117). -/
def State.nextKey (s : State) : Key := { origin := s.stn, epoch := s.submission.ownEpoch, seq := s.submission.nextSeq }

/-- The pins of a completed message (R116). -/
def State.completionPins (s : State) : Pins := { due := s.setup.loopback, handed := false, tx := true }

/-- The completion of a message (R116). NONE_RESERVED does not arise in ASSEMBLING (log entry 13). -/
def State.completeMessage (s : State) : State :=
  let r := s.store.complete s.nextKey s.completionPins
  let s1 := (s.applyStore r.2).setAsm .idle
  match r.1 with
  | .stored =>
    s1.withSubmission
      { s1.submission with
        nextSeq := s.submission.nextSeq + 1
        queue := s.submission.queue ++ [{ seq := s.submission.nextSeq, count := 0, marker := .waiting }] }
  | .present => s1.raise .submitError
  | .noneReserved => s1

/-- A payload word (R114). -/
def State.payloadWord (s : State) (w : Word) (wend : Bool) : State :=
  let s1 := (s.withStore (s.store.writeReserved (s.submission.bytesOf w))).withSubmission
    { s.submission with taken := s.submission.taken + 1 }
  if s1.submission.taken < s1.submission.expected then if wend then s1.rejectSubmission wend else s1
  else if wend then s1.completeMessage
  else s1.setAsm .awaitingEnd

/-- A data word taken while WRDY is asserted (R113 to R115). -/
def State.takeDataWord (s : State) (w : Word) (wend : Bool) : State :=
  match s.submission.asm with
  | .idle => s.wordZero w wend
  | .assembling => s.payloadWord w wend
  | .awaitingEnd => s.rejectSubmission wend
  | .discarding => if wend then s.setAsm .idle else s

/-- DATA_WORD (R112). While MRST is asserted the word is ignored and raises nothing (R161). -/
def execDataWord (w : Word) (wend : Bool) (s : State) : Host.Outcome State Fault Refusal :=
  if s.station.mrst then .next s
  else if s.wrdy then .next (s.takeDataWord w wend)
  else .next (s.raise .portMisuse)

/-! ### The DATA duty queue (R118 to R121) -/

/-- The key of the message of sequence number `n` on the DATA duty queue (R118). -/
def State.ownKey (s : State) (n : SeqNum) : Key := { origin := s.stn, epoch := s.submission.ownEpoch, seq := n }

/-- The DATA duty queue becomes `q`. -/
def State.setDataQueue (s : State) (q : List DataDuty) : State := s.withSubmission { s.submission with queue := q }

/-- The take: a WAITING head goes to SENDING and answers its key; `none` is no such head (R119). -/
def State.takeData (s : State) : Option (Key × State) :=
  match s.submission.queue with
  | [] => none
  | h :: rest =>
    if h.marker = .waiting then
      some (s.ownKey h.seq, s.setDataQueue ({ h with marker := .sending } :: rest))
    else none

/-- A collision below the sixteenth: the head returns to WAITING with its count raised (R119). -/
def State.dataCollided (s : State) : State :=
  match s.submission.queue with
  | [] => s
  | h :: rest =>
    if h.marker = .sending then s.setDataQueue ({ h with marker := .waiting, count := h.count + 1 } :: rest) else s

/-- The own context is told that the first transmission of `n` has ended (R48). -/
def State.tellOwnContext (s : State) (n : SeqNum) : State :=
  if s.setup.loopback then s.setCtx s.stn { s.ctx s.stn with horizon := n } else s

/-- The first transmission of the head ends, SENT or ABANDONED (R120). -/
def State.dataEnded (s : State) : State :=
  match s.submission.queue with
  | [] => s
  | h :: rest =>
    if h.marker = .sending then
      ((s.withSubmission { s.submission with queue := rest, nextUntx := h.seq + 1 }).clearTx
        (s.ownKey h.seq)).tellOwnContext h.seq
    else s

end Sys2Proof.Machine
end

