-- ==== Sys2Proof/Machine/Delivery.lean ====
section
/-! DEFINITION. The Delivery Engine, the Delivery Queue and the delivery channel of the read side (chapter 5, 11.2). -/

namespace Sys2Proof.Machine

/-! ### Readiness (R91, R92) -/

/-- The key of number `n` of the epoch that context `o` follows. -/
def State.keyOf (s : State) (o : Station) (n : SeqNum) : Key := { origin := o, epoch := (s.ctx o).epoch, seq := n }

/-- A number of [next-due, horizon] that is not deliverable and lies before the loss floor or is present without DUE
(R91). -/
def State.lostReportable (s : State) (o : Station) (n : SeqNum) : Bool :=
  decide (offset (s.ctx o).nextDue n < (s.ctx o).extent) && !s.store.deliverable (s.keyOf o n) &&
    (decide (offset (s.ctx o).nextDue n < offset (s.ctx o).nextDue (s.ctx o).lossFloor) ||
      s.store.present (s.keyOf o n))

/-- What a context is ready for (Table 5.1). -/
inductive Ready where
  | restart
  | message
  | lost
  | no
deriving DecidableEq, Repr

/-- Readiness of context `o` (R91, R92). -/
def State.ready (s : State) (o : Station) : Ready :=
  let c := s.ctx o
  match c.state with
  | .unsynced => .no
  | .own => if offset c.nextDue c.horizon ≤ 32767 then .message else .no
  | _ =>
    if c.restartPending then .restart
    else if s.store.deliverable (s.keyOf o c.nextDue) then .message
    else if s.lostReportable o c.nextDue then .lost
    else .no

/-- How many of at most `fuel` numbers from `n` are lost-reportable one after another (R95). -/
def State.lostRun (s : State) (o : Station) : Nat → SeqNum → Nat
  | 0, _ => 0
  | fuel + 1, n => if s.lostReportable o n then s.lostRun o fuel (n + 1) + 1 else 0

/-! ### The turn (R93 to R96) -/

/-- A record joins the tail of the queue (R99). -/
def State.enqueue (s : State) (r : Record) : State :=
  s.withDelivery { s.delivery with queue := s.delivery.queue ++ [r] }

/-- The MESSAGE record of next-due with its hand claim and advance claim (R94). -/
def State.makeMessage (s : State) (o : Station) : State :=
  let n := (s.ctx o).nextDue
  let k := s.keyOf o n
  ((s.applyStore (s.store.hand k).2).enqueue (.message k)).advance o (n + 1)

/-- The LOST record of the run at next-due with its advance claim (R95). "In every case the count lies in 1 to 32767": a run of
32768, which the bounds of R24 and R42 leave room for, is reported up to its 32767th number (log entry 22). -/
def State.makeLost (s : State) (o : Station) : State :=
  let n := (s.ctx o).nextDue
  let count := s.lostRun o (min (s.ctx o).extent Config.maxLost) n
  ((((s.enqueue (.lost o (s.ctx o).epoch n count)).raise .loss).addCount .lostSeqs count)).advance o
    (n + BitVec.ofNat 16 count)

/-- The RESTART record with its advance claim (R96). -/
def State.makeRestart (s : State) (o : Station) : State :=
  let c := s.ctx o
  ((s.enqueue (.restart o c.restartOldEpoch c.epoch c.restartCount)).raise .restart).advanceRestart o

/-- Context `o` is served: the record it is ready for is made, and the pointer takes its number (R93). -/
def State.serve (s : State) (o : Station) : State :=
  let s1 := s.withDelivery { s.delivery with lastServed := o }
  match s.ready o with
  | .message => s1.makeMessage o
  | .lost => s1.makeLost o
  | .restart => s1.makeRestart o
  | .no => s

/-- The first ready context after the last-served one (R93). -/
def State.nextReady (s : State) : Option Station := (rotation s.delivery.lastServed).find? fun o => s.ready o != .no

/-- DELIVERY_TURN (R93): a turn when the queue has room and a context is ready, else nothing. -/
def execDeliveryTurn (s : State) : Host.Outcome State Fault Refusal :=
  if s.delivery.queue.length < Config.deliverySize then
    match s.nextReady with
    | some o => .next (s.serve o)
    | none => .next s
  else .next s

/-! ### The read side (R100 to R102, R187) -/

/-- The payload words of a MESSAGE (R100). -/
def payloadWords : List Byte → List Word
  | [] => []
  | [a] => [joinBytes a 0]
  | a :: b :: rest => joinBytes a b :: payloadWords rest

/-- A record's kind code and origin in its first word (R187). -/
def kindWord (kind : Nat) (origin : Station) : Word := packWord [bitField 8 8 kind, bitField 8 0 origin.toNat]

/-- The first word of a record (R187). -/
def Record.firstWord : Record → Word
  | .message k => kindWord 1 k.origin
  | .lost origin _ _ _ => kindWord 2 origin
  | .restart origin _ _ _ => kindWord 3 origin

/-- The words of a record, those of a MESSAGE read from its entry (Table 5.4, Table 11.2). -/
def Record.words (st : Store) (r : Record) : List Word :=
  match r with
  | .message k =>
    r.firstWord :: joinBytes k.epoch (BitVec.ofNat 8 (st.read k).length) :: k.seq :: payloadWords (st.read k).payload
  | .lost _ epoch first count => [r.firstWord, joinBytes 0 epoch, first, BitVec.ofNat 16 count]
  | .restart _ old new count => [r.firstWord, joinBytes old new, count]

/-- RD and RLAST as a take leaves them. -/
def State.putOut (s : State) (w : Word) (last : Bool) : State := s.withOut { rd := w, rlast := last }

/-- The head record leaves the queue, a MESSAGE with the clear-HANDED claim for its key (R101, R105). -/
def State.dropHead (s : State) : State :=
  match s.delivery.queue with
  | [] => s
  | r :: rest =>
    let s1 := s.withDelivery { s.delivery with queue := rest, readPos := 0 }
    match r with
    | .message k => s1.clearHanded k
    | .lost _ _ _ _ => s1
    | .restart _ _ _ _ => s1

/-- A take on the delivery channel (R100 to R102). -/
def State.takeDelivery (s : State) : State :=
  match s.delivery.queue with
  | [] => (s.putOut 0 false).raise .portMisuse
  | r :: _ =>
    let ws := r.words s.store
    let w := ws.getD s.delivery.readPos 0
    if ws.length ≤ s.delivery.readPos + 1 then (s.putOut w true).dropHead
    else (s.putOut w false).withDelivery { s.delivery with readPos := s.delivery.readPos + 1 }

/-- DELIVERY_TAKE (R100). While MRST is asserted it returns 0 without RLAST and raises nothing (R161). -/
def execDeliveryTake (s : State) : Host.Outcome State Fault Refusal :=
  if s.station.mrst then .next (s.putOut 0 false) else .next s.takeDelivery

end Sys2Proof.Machine
end

