-- ==== Sys2Proof/Machine/Scheduler.lean ====
section
/-! DEFINITION. The Transmit Scheduler's candidates, commitment, hold-off and start of a transmission (chapter 7), with the
transmit side of the Trunk Interface (8.3). -/

namespace Sys2Proof.Machine

/-! ### Candidates (R125, R126) -/

/-- The four classes (Table 7.3). -/
inductive FrameClass where
  | replay
  | gapreq
  | data
  | beacon
deriving DecidableEq, Repr

/-- The class index, which sets the hold-off band (Table 7.3). -/
def FrameClass.idx : FrameClass → Nat
  | .replay => 0
  | .gapreq => 1
  | .data => 2
  | .beacon => 3

/-- The class of a duty. -/
def DutyRef.frameClass : DutyRef → FrameClass
  | .replay _ => .replay
  | .gapreq _ => .gapreq
  | .data => .data
  | .beacon => .beacon

/-- The REPLAY candidate with its count: the head of the eligible order while ELIGIBLE (R81). -/
def State.replayCandidate (s : State) : Option Commitment :=
  match s.duties.eligible with
  | [] => none
  | d :: _ =>
    match s.duty d with
    | some x => if x.state = .eligible then some { duty := .replay d, count := x.count } else none
    | none => none

/-- The GAPREQ candidate with its count: the head of the request list while PENDING (R58). -/
def State.gapreqCandidate (s : State) : Option Commitment :=
  match s.pool.requests with
  | [] => none
  | r :: _ => if (s.tracker r.tracker).marker = .pending then some { duty := .gapreq r.tracker, count := r.count } else none

/-- The DATA candidate with its count: the head of the DATA duty queue while WAITING (R118). -/
def State.dataCandidate (s : State) : Option Commitment :=
  match s.submission.queue with
  | [] => none
  | h :: _ => if h.marker = .waiting then some { duty := .data, count := h.count } else none

/-- The BEACON candidate with its count: the BEACON duty while pending (R140). -/
def State.beaconCandidate (s : State) : Option Commitment :=
  if s.sched.beaconDuty then some { duty := .beacon, count := s.sched.beaconCount } else none

/-- The candidate of a class (R125). -/
def State.candidate (s : State) : FrameClass → Option Commitment
  | .replay => s.replayCandidate
  | .gapreq => s.gapreqCandidate
  | .data => s.dataCandidate
  | .beacon => s.beaconCandidate

/-- The CLASS_PRIORITY flag of a class (Table 9.2). -/
def ClassFlags.has (f : ClassFlags) : FrameClass → Bool
  | .replay => f.replay
  | .gapreq => f.gapreq
  | .data => f.data
  | .beacon => f.beacon

/-- The classes in the order of their class index. -/
def allClasses : List FrameClass := [.replay, .gapreq, .data, .beacon]

/-- The order of precedence: flagged classes first, each group in class order (R126). -/
def ClassFlags.order (f : ClassFlags) : List FrameClass :=
  allClasses.filter (fun c => f.has c) ++ allClasses.filter fun c => !f.has c

/-- The highest-ranked candidate present (R126). -/
def State.bestCandidate (s : State) : Option Commitment :=
  s.setup.classPriority.order.findSome? s.candidate

/-- A selection point holds (R127). -/
def State.selectionPoint (s : State) : Bool :=
  s.trunk.lineIdle && s.isActive && s.sched.state == .idle && s.sched.commitment.isNone

/-- The contention cells of a hold-off (R128). -/
def holdoffCells (stn : Station) (c : Commitment) : Nat :=
  32 * c.duty.frameClass.idx + (stn.toNat + 5 * c.count) % 32

/-! ### The start of a transmission (R132, R133, R149) -/

/-- The BEACON the station would send as it stands (R121, Table 7.6). -/
def State.beaconFrame (s : State) : Frame := .beacon s.stn s.submission.ownEpoch s.submission.nextUntx

/-- The GAPREQ of tracker `t` as it stands (R59, Table 7.6). -/
def State.gapreqFrame (s : State) (t : Fin 8) : Frame :=
  .gapreq s.stn (s.tracker t).origin (s.tracker t).epoch (s.tracker t).runFirst (s.tracker t).runCount

/-- The take of the committed duty: the frame content and the state after it; `none` is WITHDRAWN (R132, R133). -/
def State.takeFrame (s : State) (d : DutyRef) : Option (Frame × State) :=
  match d with
  | .replay d => (s.takeReplay d).map fun r => (.replay r.1.origin r.1.epoch r.1.seq s.stn (s.store.read r.1).payload, r.2)
  | .gapreq t => (s.takeRequest t).map fun s1 => (s.gapreqFrame t, s1)
  | .data => s.takeData.map fun r => (.data r.1.origin r.1.epoch r.1.seq (s.store.read r.1).payload, r.2)
  | .beacon => if s.sched.beaconDuty then some (s.beaconFrame, s) else none

/-- The Trunk Interface starts sending the frame; a burst being assembled is dropped, the path goes to OWN, and the
line-idle indication is cleared by the station's own transitions (R146, R149). -/
def State.drive (s : State) (f : Frame) : State :=
  s.withTrunk { lineIdle := false, burst := true, rx := RxPath.at .own, tx := some f.bytes }

/-- The Scheduler releases its commitment and is IDLE (R130, R131, R132). -/
def State.releaseCommitment (s : State) : State :=
  s.withSched { s.sched with state := .idle, commitment := none, holdoff := none }

/-- The hold-off of commitment `c` has run out: the take, and the frame starts, or the commitment is released on WITHDRAWN
(R132, R139). -/
def State.startCommitted (s : State) (c : Commitment) : State :=
  match s.takeFrame c.duty with
  | none => s.releaseCommitment
  | some r =>
    (r.2.drive r.1).withSched
      { s.sched with
        state := .sending, commitment := some c, holdoff := none, beaconTimer := some s.setup.beaconInterval }

/-- HOLDOFF_RUNS_OUT (R132). A stopped hold-off timer does not run out. -/
def execHoldoffRunsOut (s : State) : Host.Outcome State Fault Refusal :=
  if s.sched.state = .holdoff ∧ s.sched.holdoff.isSome ∧ s.isActive then
    match s.sched.commitment with
    | some c => .next (s.startCommitted c)
    | none => .next s
  else .next s

/-- The commitment of candidate `c`; a hold-off of 0 cells runs out within it (R127, R128). -/
def State.commit (s : State) (c : Commitment) : State :=
  let s1 := s.withSched
    { s.sched with state := .holdoff, commitment := some c, holdoff := some (holdoffCells s.stn c) }
  if holdoffCells s.stn c = 0 then s1.startCommitted c else s1

/-- SELECTION_COMMIT (R127): while a selection point holds and a candidate is present. -/
def execSelectionCommit (s : State) : Host.Outcome State Fault Refusal :=
  if s.selectionPoint then
    match s.bestCandidate with
    | some c => .next (s.commit c)
    | none => .next s
  else .next s

/-- BEACON_TIMER_RUNS_OUT (R139). A pending BEACON duty is kept with its count; a stopped timer does not run out. -/
def execBeaconTimerRunsOut (s : State) : Host.Outcome State Fault Refusal :=
  if s.sched.beaconTimer.isSome then
    .next (s.withSched
      { s.sched with
        beaconTimer := none
        beaconDuty := true
        beaconCount := if s.sched.beaconDuty then s.sched.beaconCount else 0 })
  else .next s

end Sys2Proof.Machine
end

