-- ==== Sys2Proof/Machine/Station.lean ====
section
/-! DEFINITION. Station Control (chapter 9): the changes of station state with what they ask of the other blocks, the resets,
and the outcomes of a transmission, which may mute the station or set a leaving one READY (7.4). -/

namespace Sys2Proof.Machine

/-! ### Changes of station state -/

/-- The listen timer starts, or starts again, with its full period (R166). -/
def State.startListenTimer (s : State) : State :=
  s.withStation { s.station with listenTimer := some s.setup.listenPeriod }

/-- Entry to READY by LEAVE or by the transmitter-free notice: the receive path is turned off, the silence timers stop, the
listen timer is not running and no mute reason stands (R168). -/
def State.enterReady (s : State) : State :=
  ((s.withStation { s.station with state := .ready, muteReason := none, listenTimer := none }).withTrunk
    { s.trunk with rx := RxPath.at .off }).stopSilenceTimers

/-- What the Scheduler does when the station leaves ACTIVE: the commitment of a HOLDOFF is released, the beacon timer stops
and the BEACON duty becomes absent with its count 0; a frame or jam in flight goes on (R142, R143). -/
def Scheduler.leaveActive (x : Scheduler) : Scheduler :=
  let y := { x with beaconTimer := none, beaconDuty := false, beaconCount := 0 }
  if x.state = .holdoff then { y with state := .idle, commitment := none, holdoff := none } else y

/-- What leaving ACTIVE asks of the Scheduler, the duty pool and the tracker pool; the station state is already the new one,
so no freed tracker is offered (R71, R89, R142, R143). -/
def State.quitActive (s : State) : State :=
  ((s.withSched s.sched.leaveActive).dropDuties).freeAllTrackers

/-- Entry to MUTED from ACTIVE (R171). -/
def State.enterMuted (s : State) (why : MuteReason) : State :=
  ((s.withStation { s.station with state := .muted, muteReason := some why }).raise .muted).quitActive

/-- A frame or jam is in flight (R142). -/
def State.inFlight (s : State) : Bool := s.sched.state == .sending || s.sched.state == .jamming

/-- The transmitter-free notice: a LEAVING station goes to READY, others do nothing (R169). -/
def State.transmitterFree (s : State) : State := if s.station.state = .leaving then s.enterReady else s

/-- The mute request: taken in ACTIVE alone (R137, R169, R171). -/
def State.muteRequest (s : State) : State := if s.isActive then s.enterMuted .abandon else s

/-- LISTEN_TIMER_RUNS_OUT (R167, R141, R56). A stopped timer does not run out. -/
def execListenTimerRunsOut (s : State) : Host.Outcome State Fault Refusal :=
  if s.station.state = .listening ∧ s.station.listenTimer.isSome then
    .next ((((s.withStation { s.station with state := .active, listenTimer := none }).raise .activeReached).withSched
      { s.sched with
        beaconDuty := true, beaconCount := 0, beaconTimer := some s.setup.beaconInterval, abandons := 0 }).offerAll)
  else .next s

/-! ### Station Control's commands: the status each is answered with, and the state after -/

/-- JOIN accepted (R165). The receive path goes to SKIP when a burst is in progress (R151). -/
def State.acceptJoin (s : State) : State :=
  let s1 := (s.withStation
      { s.station with state := .listening, listenTimer := some s.setup.listenPeriod }).withTrunk
    { s.trunk with rx := RxPath.at (if s.trunk.burst then .skip else .waiting) }
  if s.station.state = .setup then
    (s1.withSubmission { s1.submission with ownEpoch := s.setup.initialEpoch }).setCtx s.stn
      { s.ctx s.stn with epoch := s.setup.initialEpoch, nextDue := 0, horizon := 65535, lossFloor := 0 }
  else s1.startSilenceTimers

/-- LEAVE accepted: READY, or LEAVING with a frame or jam in flight (R168). -/
def State.acceptLeave (s : State) : State :=
  if s.inFlight then
    (s.withStation { s.station with state := .leaving, muteReason := none, listenTimer := none }).quitActive
  else s.enterReady.quitActive

/-- RECOVER accepted (R172). -/
def State.acceptRecover (s : State) : State :=
  s.withStation
    { s.station with state := .listening, muteReason := none, listenTimer := some s.setup.listenPeriod }

/-! ### Resets (R161, R162) -/

/-- MASTER_RESET: every block takes its master-reset value and MRST stays asserted (R161). The sampled straps stand until
the next release (R160). The waiting commands are the environment's and are kept. -/
def execMasterReset (s : State) : Host.Outcome State Fault Refusal :=
  .next
    { store := Store.purged
      contexts := contextsAtReset s.stn 0
      pool := TrackerPool.atReset
      duties := DutyPool.atReset
      delivery := Delivery.atReset
      submission := Submission.atReset 0
      sched := Scheduler.atReset
      trunk := Trunk.atReset
      station := StationControl.atReset s.stn s.station.rate true
      control := Control.atReset
      events := Events.atReset
      counters := Counters.zero
      out := { rd := 0, rlast := false }
      pending := s.pending }

/-- MRST_RELEASE: the straps are sampled and the station is in SETUP, every block at its master-reset value, the own context
at the sampled number (R160, R161). MRST that is not asserted cannot be released. -/
def execMrstRelease (stn : Station) (rate : BitVec 2) (s : State) : Host.Outcome State Fault Refusal :=
  if s.station.mrst then
    .next
      { store := Store.purged
        contexts := contextsAtReset stn 0
        pool := TrackerPool.atReset
        duties := DutyPool.atReset
        delivery := Delivery.atReset
        submission := Submission.atReset 0
        sched := Scheduler.atReset
        trunk := Trunk.atReset
        station := StationControl.atReset stn rate false
        control := Control.atReset
        events := Events.atReset
        counters := Counters.zero
        out := { s.out with rlast := false }
        pending := s.pending }
  else .next s

/-- The Trunk Interface at a partial reset: a frame is cut off and its burst ends with it; a burst of others, or of a jam,
is in progress until its silent cell (R149, R158, log entry 6). -/
def State.trunkAtPartialReset (s : State) : Trunk :=
  { lineIdle := false
    burst := s.trunk.burst && s.sched.state != .sending
    rx := RxPath.at .off
    tx := none }

/-- PARTIAL_RESET (R162). It has no effect while MRST is asserted (R161). -/
def execPartialReset (s : State) : Host.Outcome State Fault Refusal :=
  if s.station.mrst then .next s
  else
    .next
      { store := Store.purged
        contexts := contextsAtReset s.stn (s.submission.ownEpoch + 1)
        pool := TrackerPool.atReset
        duties := DutyPool.atReset
        delivery := Delivery.atReset
        submission := Submission.atReset (s.submission.ownEpoch + 1)
        sched := Scheduler.atReset
        trunk := s.trunkAtPartialReset
        station := { s.station with state := .ready, muteReason := none, listenTimer := none }
        control := Control.atReset
        events := { s.events with flags := 0 }
        counters := Counters.zero
        out := { s.out with rlast := false }
        pending := s.pending }

/-! ### Outcomes of a transmission (R134 to R138) -/

/-- The owner of a duty is told SENT (R134). -/
def State.tellSent (s : State) (d : DutyRef) : State :=
  match d with
  | .replay d => s.replaySent d
  | .gapreq t => s.requestSent t
  | .data => s.dataEnded
  | .beacon => s.withSched { s.sched with beaconDuty := false, beaconCount := 0 }

/-- The owner of a duty is told of a collision below the sixteenth (R135). -/
def State.tellCollision (s : State) (d : DutyRef) : State :=
  match d with
  | .replay d => s.replayCollided d
  | .gapreq t => s.requestCollided t
  | .data => s.dataCollided
  | .beacon =>
    if s.sched.beaconDuty then s.withSched { s.sched with beaconCount := s.sched.beaconCount + 1 } else s

/-- The owner of a duty is told ABANDONED (R136). -/
def State.tellAbandoned (s : State) (d : DutyRef) : State :=
  match d with
  | .replay d => s.replayAbandoned d
  | .gapreq t => s.requestAbandoned t
  | .data => s.dataEnded
  | .beacon => s.withSched { s.sched with beaconDuty := false, beaconCount := 0 }

/-- The Trunk Interface after its last check cell: the path waits, the own burst has ended (R149, Table 8.3). -/
def State.stopDriving (s : State) : State :=
  s.withTrunk { s.trunk with burst := false, rx := RxPath.at .waiting, tx := none }

/-- The frame end of commitment `c` is reported (R134, R149). -/
def State.frameEnds (s : State) (c : Commitment) : State :=
  let s1 := s.stopDriving.tellSent c.duty
  (s1.withSched { s1.sched with state := .idle, commitment := none, abandons := 0 }).transmitterFree

/-- The Trunk Interface at a collision: the frame is stopped, the jam begins, and the path ignores the line (R150). -/
def State.startJam (s : State) : State :=
  (s.count .collisions).withTrunk { s.trunk with rx := RxPath.at .skip, tx := none }

/-- The Scheduler goes to JAMMING with its commitment released (R135, R136). -/
def State.toJamming (s : State) : State := s.withSched { s.sched with state := .jamming, commitment := none }

/-- An abandon: counted, raised, and the consecutive-abandon count raised, which stays at 3 (R136). -/
def State.noteAbandon (s : State) : State :=
  ((s.count .abandons).raise .abandon).withSched
    { s.sched with abandons := min (s.sched.abandons + 1) Config.muteLimit }

/-- The sixteenth collision of a duty (R136, R137). -/
def State.abandon (s : State) (d : DutyRef) : State :=
  let s1 := ((s.tellAbandoned d).noteAbandon).toJamming
  if s1.sched.abandons = Config.muteLimit then s1.muteRequest else s1

/-- The collision of commitment `c` is reported: the commitment's copy of the count decides collision or abandon (R135, R136,
R150). -/
def State.collides (s : State) (c : Commitment) : State :=
  if c.count < Config.lastCollision then (s.startJam.tellCollision c.duty).toJamming else s.startJam.abandon c.duty

/-- The cells `read` are read back while the own frame is sent: the Trunk Interface reports the frame end or the collision,
whichever they show, or nothing while both are still to come (R149, R150). Nothing is read back outside SENDING. -/
def State.readBackCells (s : State) (read : List (Option BurstCell)) : State :=
  match s.sched.state, s.sched.commitment, s.trunk.tx with
  | .sending, some c, some bytes =>
    match readBack (lineCells bytes) read with
    | .ended => s.frameEnds c
    | .mismatch => s.collides c
    | .unfinished => s
  | _, _, _ => s

/-- FRAME_END (R149, R134). What the cells show decides (log entry 16). -/
def execFrameEnd (s : State) (read : List (Option BurstCell)) : Host.Outcome State Fault Refusal :=
  .next (s.readBackCells read)

/-- COLLISION (R150, R135, R136). What the cells show decides (log entry 16). -/
def execCollision (s : State) (read : List (Option BurstCell)) : Host.Outcome State Fault Refusal :=
  .next (s.readBackCells read)

/-- JAM_END (R138). -/
def execJamEnd (s : State) : Host.Outcome State Fault Refusal :=
  if s.sched.state = .jamming then .next ((s.withSched { s.sched with state := .idle }).transmitterFree) else .next s

end Sys2Proof.Machine
end

