-- ==== Sys2Proof/Machine/Reception.lean ====
section
/-! DEFINITION. What the line brings (chapter 8): line activity and idleness, the bursts other stations send, their decision,
and the distribution of good frames. Each burst's row carries the burst's cells; what the burst is, the receive path decides
from them (R152 to R155). -/

namespace Sys2Proof.Machine

/-! ### The line monitor (R146) -/

/-- Line activity defers a Scheduler in HOLDOFF (R130). -/
def State.defer (s : State) : State := if s.sched.state = .holdoff then s.releaseCommitment else s

/-- The receive path at the first transition of a burst (Table 8.3). -/
def RxPath.firstTransition (rx : RxPath) : RxPath := if rx.path = .waiting then RxPath.at .hunt else rx

/-- LINE_ACTIVITY (R146, R130). While MRST is asserted the line monitor does not watch the line (R161). -/
def execLineActivity (s : State) : Host.Outcome State Fault Refusal :=
  if s.station.mrst then .next s
  else
    .next ((s.withTrunk { s.trunk with lineIdle := false, burst := true, rx := s.trunk.rx.firstTransition }).defer)

/-- The receive path at a silent cell when it was ignoring the line (Table 8.3). -/
def RxPath.endSkip (rx : RxPath) : RxPath := if rx.path = .skip then RxPath.at .waiting else rx

/-- LINE_IDLE (R146). Sixteen silent bit times are no burst, and have ended one that was ignored. With a frame or jam in
flight, or with the path in HUNT or ASSEMBLE, it cannot arise; the model sets the indication and ends the burst there too, and
leaves the path (log entry 15). -/
def execLineIdle (s : State) : Host.Outcome State Fault Refusal :=
  if s.station.mrst then .next s
  else .next (s.withTrunk { s.trunk with lineIdle := true, burst := false, rx := s.trunk.rx.endSkip })

/-- SILENT_CELL_ENDS_SKIP (R151). With the path OFF, the line monitor alone sees the burst end. -/
def execSilentCellEndsSkip (s : State) : Host.Outcome State Fault Refusal :=
  if s.trunk.rx.path = .skip ∨ s.trunk.rx.path = .off then
    .next (s.withTrunk { s.trunk with burst := false, rx := s.trunk.rx.endSkip })
  else .next s

/-! ### Decisions (R154 to R156, R170) -/

/-- A frame error (R154): counted, raised, and in LISTENING the listen timer restarts (R166). -/
def State.frameError (s : State) : State :=
  let s1 := (s.count .rxError).raise .rxError
  if s1.station.state = .listening then s1.startListenTimer else s1

/-- A clash at Station Control (R170). In SETUP and READY none is reported. -/
def State.clash (s : State) : State :=
  match s.station.state with
  | .listening => (s.raise .clash).startListenTimer
  | .active => (s.raise .clash).enterMuted .clash
  | .leaving => s.raise .clash
  | .muted => s
  | .setup => s
  | .ready => s

/-- A DATA of a peer at the table and the duty pool (Table 8.5). -/
def State.dataFrame (s : State) (k : Key) (payload : List Byte) : State :=
  (s.classify { key := k, payload := payload }).cancelKey k

/-- A REPLAY at the table, left alone there when the origin is the own number (R49), at the trackers and at the duty pool
(Table 8.5). -/
def State.replayFrame (s : State) (k : Key) (payload : List Byte) : State :=
  let s1 := if k.origin = s.stn then s else s.classify { key := k, payload := payload }
  (s1.hearReplay k).cancelKey k

/-- The distribution of a good frame that is not a clash, in the order of the table's rows (Table 8.5, log entry 11). -/
def State.distribute (s : State) (f : Frame) : State :=
  match f with
  | .data origin epoch seq payload => s.dataFrame { origin := origin, epoch := epoch, seq := seq } payload
  | .replay origin epoch seq _ payload => s.replayFrame { origin := origin, epoch := epoch, seq := seq } payload
  | .gapreq requester origin epoch first count =>
    (s.hearGapreq origin epoch first count).answerGapreq requester origin epoch first count
  | .beacon sender epoch nextSeq => s.takeBeacon sender epoch nextSeq

/-- A good frame: a clash when its sender is the own number, else counted, its sender heard, and distributed (R155, R156). -/
def State.goodFrame (s : State) (f : Frame) : State :=
  if f.sender = s.stn then s.clash else ((s.count .rxGood).heard f.sender).distribute f

/-- What a decision brings (R154, R155). -/
def State.takeDecision (s : State) (d : Decision) : State :=
  match d with
  | .ignored => s
  | .error => s.frameError
  | .good f => s.goodFrame f

/-- The receive path waits again and no burst is in progress. -/
def State.burstOver (s : State) (p : PathState) : State :=
  s.withTrunk { s.trunk with burst := false, rx := RxPath.at p }

/-- A burst with these cells ends in a silent cell. It is decided unless the path is OFF, is reading back its own frame, or
was ignoring the burst (Table 8.3, R151, R154). -/
def State.burstEnds (s : State) (cells : List BurstCell) : State :=
  if s.station.mrst then s
  else match s.trunk.rx.path with
    | .own => s
    | .off => s.burstOver .off
    | _ => (s.burstOver .waiting).takeDecision (s.trunk.rx.cells cells).decide

/-! ### The rows -/

/-- FRAGMENT (R153): the cells reach the receive path, which at the sixteenth consecutive violation cell drops the burst and
goes to SKIP. -/
def execFragment (cells : List BurstCell) (s : State) : Host.Outcome State Fault Refusal :=
  if s.station.mrst then .next s
  else .next (s.withTrunk { s.trunk with burst := s.trunk.burst || !cells.isEmpty, rx := s.trunk.rx.cells cells })

/-- FRAME_ERROR (R154). -/
def execFrameError (cells : List BurstCell) (s : State) : Host.Outcome State Fault Refusal := .next (s.burstEnds cells)

/-- CLASH (R155, R170). -/
def execClash (cells : List BurstCell) (s : State) : Host.Outcome State Fault Refusal := .next (s.burstEnds cells)

/-- RX_DATA (R28, R156). -/
def execRxData (cells : List BurstCell) (s : State) : Host.Outcome State Fault Refusal := .next (s.burstEnds cells)

/-- RX_REPLAY (R28, R156). -/
def execRxReplay (cells : List BurstCell) (s : State) : Host.Outcome State Fault Refusal := .next (s.burstEnds cells)

/-- RX_GAPREQ (R75, R156). -/
def execRxGapreq (cells : List BurstCell) (s : State) : Host.Outcome State Fault Refusal := .next (s.burstEnds cells)

/-- RX_BEACON (R41, R156). -/
def execRxBeacon (cells : List BurstCell) (s : State) : Host.Outcome State Fault Refusal := .next (s.burstEnds cells)

end Sys2Proof.Machine
end

