-- ==== Sys2Proof/Machine/Control.lean ====
section
/-! DEFINITION. The Control Channel: parser, commands, response buffer (chapter 10, 11.3, 11.4). -/

namespace Sys2Proof.Machine

/-! ### Codes (R188) -/

/-- The command code (Table 11.3). -/
def Command.code : Command → Nat
  | .set => 0x01
  | .join => 0x02
  | .leave => 0x03
  | .recover => 0x04
  | .status => 0x10
  | .readContext => 0x11
  | .readCounters => 0x12
  | .clearCounters => 0x13
  | .readEvents => 0x14
  | .ackEvents => 0x15
  | .setEventMask => 0x16
  | .setEventPriority => 0x17
  | .discardHead => 0x20

/-- The argument count (Table 10.2). -/
def Command.argCount : Command → Nat
  | .set => 2
  | .join => 0
  | .leave => 0
  | .recover => 0
  | .status => 0
  | .readContext => 1
  | .readCounters => 0
  | .clearCounters => 0
  | .readEvents => 0
  | .ackEvents => 1
  | .setEventMask => 1
  | .setEventPriority => 1
  | .discardHead => 0

/-- The thirteen commands (Table 10.2). -/
def allCommands : List Command :=
  [.set, .join, .leave, .recover, .status, .readContext, .readCounters, .clearCounters, .readEvents, .ackEvents,
    .setEventMask, .setEventPriority, .discardHead]

/-- Word 0 of a command (R188). -/
def Command.word0 (c : Command) : Word := packWord [bitField 8 8 c.code, bitField 8 0 c.argCount]

/-- The command whose code and argument count word 0 carries (R174, R188). -/
def commandOf (w : Word) : Option Command := allCommands.find? fun c => c.word0 == w

/-- The response status (Table 11.4). -/
inductive Status where
  | done
  | refusedState
  | refusedField
  | refusedValue
  | empty
  | malformed
deriving DecidableEq, Repr

/-- The status code (Table 11.4). -/
def Status.code : Status → Nat
  | .done => 0x01
  | .refusedState => 0x02
  | .refusedField => 0x03
  | .refusedValue => 0x04
  | .empty => 0x05
  | .malformed => 0x06

/-- The words of a response (R176, R188). -/
def responseWords (st : Status) (data : List Word) : List Word :=
  packWord [bitField 8 8 st.code, bitField 8 0 data.length] :: data

/-- A response is placed in the buffer (R176). -/
def State.respond (s : State) (st : Status) (data : List Word) : State :=
  s.withControl { s.control with response := responseWords st data, readPos := 0 }

/-- The parser enters a state. -/
def State.setParser (s : State) (p : Parser) : State := s.withControl { s.control with parser := p }

/-! ### The effect of each command, with its answer -/

/-- What a command is answered with, and the state it leaves. -/
structure Reply where
  status : Status
  data : List Word
  after : State

/-- A command that changes nothing and is answered without data words. -/
def State.refuse (s : State) (st : Status) : Reply := { status := st, data := [], after := s }

/-- A field takes its value when it is in range, else the setting is prohibited (R164). -/
def Setup.put (old : Setup) (inside : Bool) (new : Setup) : Status × Setup :=
  if inside then (.done, new) else (.refusedValue, old)

/-- The value lies in the range (Table 9.2). -/
def within (low high v : Nat) : Bool := decide (low ≤ v) && decide (v ≤ high)

/-- SET of field `field` to `v` in SETUP (R164, Table 9.2, R188). -/
def Setup.write (x : Setup) (field v : Nat) : Status × Setup :=
  match field with
  | 1 => x.put (within 8 512 v) { x with ownShare := v }
  | 2 => x.put (within 0 255 v) { x with reqBase := v }
  | 3 => x.put (within 0 255 v) { x with repairBase := v }
  | 4 => x.put (within 32 4095 v) { x with repairTimeout := v }
  | 5 => x.put (within 1 7 v) { x with attemptLimit := v }
  | 6 => x.put (within 256 65535 v) { x with beaconInterval := v }
  | 7 => x.put (within 256 65535 v) { x with listenPeriod := v }
  | 8 => x.put (within 0 1 v) { x with loopback := v == 1 }
  | 9 => x.put (within 0 64 v) { x with dqAeLevel := v }
  | 10 => x.put (within 0 64 v) { x with dqAfOffset := v }
  | 11 => x.put (within 0 255 v) { x with initialEpoch := BitVec.ofNat 8 v }
  | 12 =>
    x.put (within 0 15 v)
      { x with
        classPriority := { replay := v.testBit 0, gapreq := v.testBit 1, data := v.testBit 2, beacon := v.testBit 3 } }
  | _ => (.refusedField, x)

/-- SET (R164). -/
def State.setField (s : State) (field value : Word) : Reply :=
  if s.station.state = .setup then
    let r := s.setup.write field.toNat value.toNat
    { status := r.1, data := [], after := s.withStation { s.station with setup := r.2 } }
  else s.refuse .refusedState

/-- JOIN (R165). -/
def State.joinTrunk (s : State) : Reply :=
  if s.station.state = .setup ∨ s.station.state = .ready then { status := .done, data := [], after := s.acceptJoin }
  else s.refuse .refusedState

/-- LEAVE (R168). -/
def State.leaveTrunk (s : State) : Reply :=
  if s.station.state = .listening ∨ s.station.state = .active ∨ s.station.state = .muted then
    { status := .done, data := [], after := s.acceptLeave }
  else s.refuse .refusedState

/-- RECOVER (R172). -/
def State.recoverStation (s : State) : Reply :=
  if s.station.state = .muted then { status := .done, data := [], after := s.acceptRecover }
  else s.refuse .refusedState

/-- The station state's code (R189). -/
def StationState.code : StationState → Nat
  | .setup => 0
  | .ready => 1
  | .listening => 2
  | .active => 3
  | .leaving => 4
  | .muted => 5

/-- The mute reason's code (R189). -/
def muteCode : Option MuteReason → Nat
  | none => 0
  | some .abandon => 1
  | some .clash => 2

/-- The Scheduler state's code (R189). -/
def SchedState.code : SchedState → Nat
  | .idle => 0
  | .holdoff => 1
  | .sending => 2
  | .jamming => 3

/-- The commitment class's code (R189). -/
def commitmentCode : Option Commitment → Nat
  | none => 0
  | some c => c.duty.frameClass.idx + 1

/-- The flags of CLASS_PRIORITY as they are written and read (R188). -/
def ClassFlags.code (f : ClassFlags) : Nat :=
  flagBit f.replay + 2 * flagBit f.gapreq + 4 * flagBit f.data + 8 * flagBit f.beacon

/-- Duties in a state (R73). -/
def State.dutiesIn (s : State) (x : DutyState) : Nat :=
  allDuties.countP fun d => (s.duty d).any fun y => y.state == x

/-- The 15 data words of STATUS (R180, Table 11.6). All of them are read at one moment: the values of two blocks never straddle
a happening between them, which R180 allows (log entry 21). -/
def State.statusWords (s : State) : List Word :=
  [ packWord [bitField 3 13 s.station.state.code, bitField 2 11 (muteCode s.station.muteReason),
      bitField 2 9 s.station.rate.toNat, bitField 5 0 s.stn.toNat],
    packWord [bitField 1 15 (flagBit s.setup.loopback), bitField 4 11 s.setup.classPriority.code,
      bitField 10 0 s.setup.ownShare],
    packWord [bitField 8 8 s.setup.reqBase, bitField 8 0 s.setup.repairBase],
    packWord [bitField 3 12 s.setup.attemptLimit, bitField 12 0 s.setup.repairTimeout],
    packWord [bitField 16 0 s.setup.beaconInterval],
    packWord [bitField 16 0 s.setup.listenPeriod],
    packWord [bitField 8 8 s.setup.dqAeLevel, bitField 8 0 s.setup.dqAfOffset],
    packWord [bitField 8 8 s.setup.initialEpoch.toNat, bitField 8 0 s.submission.ownEpoch.toNat],
    s.submission.nextSeq,
    s.submission.nextUntx,
    packWord [bitField 6 10 s.submission.queue.length, bitField 10 0 s.ownFree],
    packWord [bitField 2 14 s.sched.state.code, bitField 3 11 (commitmentCode s.sched.commitment),
      bitField 1 10 (flagBit s.sched.beaconDuty), bitField 10 0 s.ownClaimable],
    packWord [bitField 2 10 s.sched.abandons, bitField 10 0 s.peerFree],
    packWord [bitField 5 10 (s.dutiesIn .delay), bitField 10 0 s.peerClaimable],
    packWord [bitField 8 8 s.delivery.queue.length, bitField 1 5 (s.dutiesIn .sending),
      bitField 5 0 (s.dutiesIn .eligible)] ]

/-- The context state's code (R189). -/
def ContextState.code : ContextState → Nat
  | .unsynced => 0
  | .steady => 1
  | .gapped => 2
  | .own => 3

/-- The 6 data words of READ_CONTEXT (R181, Table 11.7). -/
def Context.words (c : Context) : List Word :=
  [ packWord [bitField 1 8 (flagBit c.trackerHeld), bitField 1 7 (flagBit c.silenceTimer.isSome),
      bitField 1 6 (flagBit c.silent), bitField 1 5 (flagBit c.heardSinceReset),
      bitField 1 4 (flagBit c.restartPending), bitField 2 0 c.state.code],
    joinBytes c.epoch c.restartOldEpoch,
    c.nextDue,
    c.horizon,
    c.lossFloor,
    c.restartCount ]

/-- READ_CONTEXT (R181). -/
def State.contextReply (s : State) (origin : Word) : Reply :=
  if origin.toNat ≤ 31 then { status := .done, data := (s.ctx (origin.setWidth 5)).words, after := s }
  else s.refuse .refusedValue

/-- The event words as READ_EVENTS returns them (R183). -/
def Events.words (e : Events) : List Word := [e.flags.setWidth 16, e.mask.setWidth 16, e.priority.setWidth 16]

/-- ACK_EVENTS (R182). -/
def Events.ack (e : Events) (mask : Word) : Events := { e with flags := e.flags &&& ~~~(mask.setWidth 11) }

/-- DISCARD_HEAD (R105). -/
def State.discard (s : State) : Reply :=
  match s.delivery.queue with
  | [] => s.refuse .empty
  | r :: _ => { status := .done, data := [r.firstWord], after := s.dropHead }

/-- A reply DONE without data words. -/
def State.done (s : State) : Reply := { status := .done, data := [], after := s }

/-- A reply DONE with data words that are read and change nothing. -/
def State.doneWith (s : State) (ws : List Word) : Reply := { status := .done, data := ws, after := s }

/-- The execution of a well-formed command with its arguments (R178, Table 10.2). -/
def State.execute (s : State) (c : Command) (args : List Word) : Reply :=
  match c with
  | .set => s.setField (args.getD 0 0) (args.getD 1 0)
  | .join => s.joinTrunk
  | .leave => s.leaveTrunk
  | .recover => s.recoverStation
  | .status => s.doneWith s.statusWords
  | .readContext => s.contextReply (args.getD 0 0)
  | .readCounters => s.doneWith s.counters.words
  | .clearCounters => (s.withCounters Counters.zero).done
  | .readEvents => s.doneWith s.events.words
  | .ackEvents => (s.withEvents (s.events.ack (args.getD 0 0))).done
  | .setEventMask => (s.withEvents { s.events with mask := (args.getD 0 0).setWidth 11 }).done
  | .setEventPriority => (s.withEvents { s.events with priority := (args.getD 0 0).setWidth 11 }).done
  | .discardHead => s.discard

/-- Execution within the happening that takes the last word: the parser is IDLE, and the response is placed at the end
(R178). -/
def State.run (s : State) (c : Command) (args : List Word) : State :=
  let r := (s.setParser .idle).execute c args
  r.after.respond r.status r.data

/-- A command found malformed: answered at once when the word carries WEND, else its words are dropped up to the one that
does (R175). -/
def State.malformed (s : State) (wend : Bool) : State :=
  if wend then (s.setParser .idle).respond .malformed [] else s.setParser .rejecting

/-! ### The parser (R174, R175, R177) -/

/-- Word 0 of a command (R174, R177). -/
def State.commandWord0 (s : State) (w : Word) (wend : Bool) : State :=
  if s.control.response ≠ [] then
    if wend then s.raise .portMisuse else (s.raise .portMisuse).setParser .ignoring
  else match commandOf w with
    | none => s.malformed wend
    | some c =>
      if c.argCount = 0 then if wend then s.run c [] else s.malformed wend
      else if wend then s.malformed wend
      else s.setParser (.collecting c [])

/-- An argument word (R174, R175). -/
def State.argumentWord (s : State) (c : Command) (args : List Word) (w : Word) (wend : Bool) : State :=
  if args.length + 1 < c.argCount then
    if wend then s.malformed wend else s.setParser (.collecting c (args ++ [w]))
  else if wend then s.run c (args ++ [w])
  else s.malformed wend

/-- A control word (R174). While MRST is asserted it is ignored and raises nothing (R161). -/
def State.controlWord (s : State) (w : Word) (wend : Bool) : State :=
  if s.station.mrst then s
  else match s.control.parser with
    | .idle => s.commandWord0 w wend
    | .collecting c args => s.argumentWord c args w wend
    | .rejecting => s.malformed wend
    | .ignoring => if wend then s.setParser .idle else s

/-- CONTROL_WORD (R174). A word that completes a well-formed command executes it (R178). -/
def execControlWord (w : Word) (wend : Bool) (s : State) : Host.Outcome State Fault Refusal := .next (s.controlWord w wend)

/-! ### A command by its own row -/

/-- Words with WEND on the last. -/
def withWend : List Word → List (Word × Bool)
  | [] => []
  | [w] => [(w, true)]
  | w :: v :: rest => (w, false) :: withWend (v :: rest)

/-- The words of command `c` with these arguments that are still to be written: all of them, or those that follow the ones
the parser has taken (log entry 14). -/
def State.wordsLeft (s : State) (c : Command) (args : List Word) : List Word :=
  match s.control.parser with
  | .collecting c' taken =>
    if c' = c ∧ taken = args.take taken.length ∧ taken.length < args.length then args.drop taken.length
    else c.word0 :: args
  | _ => c.word0 :: args

/-- The host writes what is left of the command, its last word with WEND (R174, R178). -/
def State.issue (s : State) (c : Command) (args : List Word) : State :=
  (withWend (s.wordsLeft c args)).foldl (fun s x => s.controlWord x.1 x.2) s

/-- SET (R164). -/
def execSet (field value : Word) (s : State) : Host.Outcome State Fault Refusal := .next (s.issue .set [field, value])

/-- JOIN (R165). -/
def execJoin (s : State) : Host.Outcome State Fault Refusal := .next (s.issue .join [])

/-- LEAVE (R168). -/
def execLeave (s : State) : Host.Outcome State Fault Refusal := .next (s.issue .leave [])

/-- RECOVER (R172). -/
def execRecover (s : State) : Host.Outcome State Fault Refusal := .next (s.issue .recover [])

/-- STATUS (R180). -/
def execStatus (s : State) : Host.Outcome State Fault Refusal := .next (s.issue .status [])

/-- READ_CONTEXT (R181). -/
def execReadContext (origin : Word) (s : State) : Host.Outcome State Fault Refusal := .next (s.issue .readContext [origin])

/-- READ_COUNTERS (R185). -/
def execReadCounters (s : State) : Host.Outcome State Fault Refusal := .next (s.issue .readCounters [])

/-- CLEAR_COUNTERS (R185). -/
def execClearCounters (s : State) : Host.Outcome State Fault Refusal := .next (s.issue .clearCounters [])

/-- READ_EVENTS (R183). -/
def execReadEvents (s : State) : Host.Outcome State Fault Refusal := .next (s.issue .readEvents [])

/-- ACK_EVENTS (R182). -/
def execAckEvents (mask : Word) (s : State) : Host.Outcome State Fault Refusal := .next (s.issue .ackEvents [mask])

/-- SET_EVENT_MASK (R183). -/
def execSetEventMask (mask : Word) (s : State) : Host.Outcome State Fault Refusal := .next (s.issue .setEventMask [mask])

/-- SET_EVENT_PRIORITY (R183). -/
def execSetEventPriority (mask : Word) (s : State) : Host.Outcome State Fault Refusal :=
  .next (s.issue .setEventPriority [mask])

/-- DISCARD_HEAD (R105). -/
def execDiscardHead (s : State) : Host.Outcome State Fault Refusal := .next (s.issue .discardHead [])

/-! ### The response channel (R176, R177) -/

/-- A take on the response channel (R176, R177). -/
def State.takeResponse (s : State) : State :=
  match s.control.response with
  | [] => (s.putOut 0 false).raise .portMisuse
  | w :: ws =>
    let word := (w :: ws).getD s.control.readPos 0
    if (w :: ws).length ≤ s.control.readPos + 1 then
      (s.putOut word true).withControl { s.control with response := [], readPos := 0 }
    else (s.putOut word false).withControl { s.control with readPos := s.control.readPos + 1 }

/-- RESPONSE_TAKE (R176). While MRST is asserted it returns 0 without RLAST and raises nothing (R161). -/
def execResponseTake (s : State) : Host.Outcome State Fault Refusal :=
  if s.station.mrst then .next (s.putOut 0 false) else .next s.takeResponse

end Sys2Proof.Machine
end

