-- ==== Sys2Proof/Machine/Dispatch.lean ====
section
/-! DEFINITION. One arm for each command: the call of its meaning. -/

namespace Sys2Proof.Machine

/-- The effect of a command on everything but the queue of waiting commands. -/
def exec (i : Instr) (s : State) : Host.Outcome State Fault Refusal :=
  match i with
  | .masterReset => Sys2Proof.Machine.execMasterReset s
  | .mrstRelease stn rate => Sys2Proof.Machine.execMrstRelease stn rate s
  | .partialReset => Sys2Proof.Machine.execPartialReset s
  | .dataWord w wend => Sys2Proof.Machine.execDataWord w wend s
  | .controlWord w wend => Sys2Proof.Machine.execControlWord w wend s
  | .set field value => Sys2Proof.Machine.execSet field value s
  | .join => Sys2Proof.Machine.execJoin s
  | .leave => Sys2Proof.Machine.execLeave s
  | .recover => Sys2Proof.Machine.execRecover s
  | .status => Sys2Proof.Machine.execStatus s
  | .readContext origin => Sys2Proof.Machine.execReadContext origin s
  | .readCounters => Sys2Proof.Machine.execReadCounters s
  | .clearCounters => Sys2Proof.Machine.execClearCounters s
  | .readEvents => Sys2Proof.Machine.execReadEvents s
  | .ackEvents mask => Sys2Proof.Machine.execAckEvents mask s
  | .setEventMask mask => Sys2Proof.Machine.execSetEventMask mask s
  | .setEventPriority mask => Sys2Proof.Machine.execSetEventPriority mask s
  | .discardHead => Sys2Proof.Machine.execDiscardHead s
  | .deliveryTake => Sys2Proof.Machine.execDeliveryTake s
  | .responseTake => Sys2Proof.Machine.execResponseTake s
  | .deliveryTurn => Sys2Proof.Machine.execDeliveryTurn s
  | .lineActivity => Sys2Proof.Machine.execLineActivity s
  | .lineIdle => Sys2Proof.Machine.execLineIdle s
  | .selectionCommit => Sys2Proof.Machine.execSelectionCommit s
  | .holdoffRunsOut => Sys2Proof.Machine.execHoldoffRunsOut s
  | .frameEnd read => Sys2Proof.Machine.execFrameEnd s read
  | .collision read => Sys2Proof.Machine.execCollision s read
  | .jamEnd => Sys2Proof.Machine.execJamEnd s
  | .fragment cells => Sys2Proof.Machine.execFragment cells s
  | .frameError cells => Sys2Proof.Machine.execFrameError cells s
  | .clash cells => Sys2Proof.Machine.execClash cells s
  | .rxData cells => Sys2Proof.Machine.execRxData cells s
  | .rxReplay cells => Sys2Proof.Machine.execRxReplay cells s
  | .rxGapreq cells => Sys2Proof.Machine.execRxGapreq cells s
  | .rxBeacon cells => Sys2Proof.Machine.execRxBeacon cells s
  | .requestDelayRunsOut tracker => Sys2Proof.Machine.execRequestDelayRunsOut tracker s
  | .repairTimeoutRunsOut tracker => Sys2Proof.Machine.execRepairTimeoutRunsOut tracker s
  | .replayDelayRunsOut duties => Sys2Proof.Machine.execReplayDelayRunsOut duties s
  | .beaconTimerRunsOut => Sys2Proof.Machine.execBeaconTimerRunsOut s
  | .listenTimerRunsOut => Sys2Proof.Machine.execListenTimerRunsOut s
  | .silenceTimerRunsOut station => Sys2Proof.Machine.execSilenceTimerRunsOut station s
  | .silentCellEndsSkip => Sys2Proof.Machine.execSilentCellEndsSkip s

end Sys2Proof.Machine
end

