-- ==== Sys2Proof/Safety.lean ====
section
/-! DEFINITION. What a sound state of the part is, block by block: the properties that the manual says hold at all times, as
predicates of the state. Each is stated to hold at reset and to be kept by every step (Certificates/Slice0/Obligations.lean). -/

namespace Sys2Proof.Machine

/-! ### Station, Scheduler and Trunk Interface together (Tables 7.2, 8.3, 9.1) -/

/-- The station state agrees with what goes with it: the mute reason (R159), the listen timer (R166), the receive path
(R151), and the Scheduler's state with its commitment, hold-off, beacon and frame (R124, R127, R139, R140, R149). -/
structure ModeSound (s : State) : Prop where
  /-- the mute reason is present only while the state is MUTED (R159) -/
  mute : s.station.muteReason.isSome = true ↔ s.station.state = .muted
  /-- the listen timer runs while the station is LISTENING (R166) -/
  listen : s.station.listenTimer.isSome = true ↔ s.station.state = .listening
  /-- the receive path is off in SETUP and READY (R151) -/
  path : s.trunk.rx.path = .off ↔ s.station.state = .setup ∨ s.station.state = .ready
  /-- the commitment is present in HOLDOFF and SENDING (R124) -/
  commitment : s.sched.commitment.isSome = true ↔ s.sched.state = .holdoff ∨ s.sched.state = .sending
  /-- the hold-off timer runs in HOLDOFF (Table 7.1) -/
  holdoff : s.sched.holdoff.isSome = true ↔ s.sched.state = .holdoff
  /-- a commitment in hold-off is held in ACTIVE alone (R142, R143) -/
  holdoffActive : s.sched.state = .holdoff → s.station.state = .active
  /-- in SETUP and READY no frame or jam is in flight (R168) -/
  quiet : s.station.state = .setup ∨ s.station.state = .ready → s.sched.state = .idle
  /-- outside ACTIVE the beacon timer is stopped and the BEACON duty absent (R142, R143) -/
  beacon : s.station.state ≠ .active → s.sched.beaconTimer = none ∧ s.sched.beaconDuty = false
  /-- the own frame is on the line and read back exactly while SENDING (Table 8.3) -/
  reading : s.trunk.rx.path = .own ↔ s.sched.state = .sending
  /-- a frame is in transmission exactly while SENDING (Table 7.2) -/
  frame : s.trunk.tx.isSome = true ↔ s.sched.state = .sending
  /-- the consecutive-abandon count is 0 to 3 (R137) -/
  abandons : s.sched.abandons ≤ Config.muteLimit
  /-- while MRST is asserted the station is in SETUP (R161) -/
  held : s.station.mrst = true → s.station.state = .setup

/-! ### Retention Store (chapter 1) -/

/-- The store's canonical form: no two entries with one key (R4), every entry in the share of its origin (R1), no share over
its size (R1, R2), and nothing held in SETUP (R21). -/
structure StoreSound (s : State) : Prop where
  /-- two entries never have the same key (R4) -/
  keys : ((s.store.own ++ s.store.peer).map fun e => e.key).Nodup
  /-- own-share entries are of the own station number (R1) -/
  own : ∀ e ∈ s.store.own, e.key.origin = s.stn
  /-- peer-share entries are of another origin (R1) -/
  peer : ∀ e ∈ s.store.peer, e.key.origin ≠ s.stn
  /-- the own share's cells hold its entries and the RESERVED cell (R1, R2) -/
  ownRoom : s.store.own.length + s.store.reservedCells ≤ s.setup.ownShare
  /-- the peer share's cells hold its entries (R1) -/
  peerRoom : s.store.peer.length ≤ Config.cells - s.setup.ownShare
  /-- the division is one that setup can choose (R1) -/
  share : 8 ≤ s.setup.ownShare ∧ s.setup.ownShare ≤ 512
  /-- in SETUP the store stays empty (R21) -/
  setupEmpty : s.station.state = .setup → s.store = Store.purged

/-! ### Origin Context Table (chapter 2) -/

/-- The bounds of a synchronised context (R24): the floor at or after next-due, the horizon at or after next-due − 1 and no
more than 63 after the window base, the floor no further than horizon + 1 (R42). -/
structure Context.Bounded (c : Context) : Prop where
  floor : offset c.nextDue c.lossFloor ≤ 32767
  horizon : offset c.nextDue (c.horizon + 1) ≤ 32768
  floorReach : offset c.nextDue c.lossFloor ≤ offset c.nextDue (c.horizon + 1)
  window : offset c.nextDue (c.horizon + 1) ≤ offset c.nextDue c.lossFloor + 64

/-- The peer contexts: OWN is the own context's state alone (R23), an UNSYNCED context holds 0 (R23), a synchronised one is
bounded (R24), and DUE is carried only by entries of a synchronised context's epoch in [next-due, horizon] (R5, R25). -/
structure ContextsSound (s : State) : Prop where
  ownState : ∀ o : Station, (s.ctx o).state = .own ↔ o = s.stn
  unsynced : ∀ o : Station, (s.ctx o).state = .unsynced →
    (s.ctx o).epoch = 0 ∧ (s.ctx o).nextDue = 0 ∧ (s.ctx o).horizon = 0 ∧ (s.ctx o).lossFloor = 0 ∧
      (s.ctx o).restartPending = false
  bounded : ∀ o : Station, (s.ctx o).isSynced = true → (s.ctx o).Bounded
  due : ∀ e ∈ s.store.peer, e.pins.due = true →
    (s.ctx e.key.origin).isSynced = true ∧ e.key.epoch = (s.ctx e.key.origin).epoch ∧
      offset (s.ctx e.key.origin).nextDue e.key.seq < (s.ctx e.key.origin).extent

/-- Number `n` of the epoch that context `o` follows has its key in the store (R4, R19). -/
def State.holds (s : State) (o : Station) (n : SeqNum) : Prop :=
  ∃ x ∈ s.store.own ++ s.store.peer, x.key = { origin := o, epoch := (s.ctx o).epoch, seq := n }

/-- Number `n` lies in [base, horizon] of the context; distances are reckoned from next-due (0.6.3, R24). -/
def Context.inSpan (c : Context) (n : SeqNum) : Prop :=
  (c.base - c.nextDue).toNat ≤ (n - c.nextDue).toNat ∧ (n - c.nextDue).toNat < (c.horizon + 1 - c.nextDue).toNat

/-- Number `n` is missing at context `o`: it lies in [base, horizon] and its key is absent from the store (R25). -/
def State.missing (s : State) (o : Station) (n : SeqNum) : Prop := (s.ctx o).inSpan n ∧ ¬ s.holds o n

/-- A synchronised peer context is GAPPED exactly when a number is missing (R25). -/
def GapsDecided (s : State) : Prop :=
  ∀ o : Station, (s.ctx o).isSynced = true → ((s.ctx o).state = .gapped ↔ ∃ n : SeqNum, s.missing o n)

/-! ### Repair Tracker Pool (chapter 3) -/

/-- State, timer and request marker of a tracker go together (Table 3.2). -/
def Tracker.Consistent (tr : Tracker) : Prop :=
  match tr.state with
  | .free => tr.timer = .stopped ∧ tr.marker = .none
  | .delay => (tr.marker = .none ∧ ∃ n, tr.timer = .requestDelay n) ∨ (tr.marker ≠ .none ∧ tr.timer = .stopped)
  | .wait => tr.marker = .none ∧ ∃ n, tr.timer = .repairTimeout n
  | .parked => tr.timer = .stopped ∧ tr.marker ≠ .pending

/-- The pool: trackers consistent (Table 3.2), at most one tracker for an origin and the tracker-held flags true to it (R50,
R53, R54), the request list holding one entry for each marker PENDING or ON_WIRE (R58), and nothing outside ACTIVE
(R71). -/
structure TrackersSound (s : State) : Prop where
  consistent : ∀ t : Fin 8, (s.tracker t).Consistent
  single : ∀ t u : Fin 8, (s.tracker t).state ≠ .free → (s.tracker u).state ≠ .free →
    (s.tracker t).origin = (s.tracker u).origin → t = u
  held : ∀ o : Station, (s.ctx o).trackerHeld = true ↔ ∃ t : Fin 8, (s.tracker t).state ≠ .free ∧ (s.tracker t).origin = o
  requestsNodup : (s.pool.requests.map fun r => r.tracker).Nodup
  requests : ∀ t : Fin 8, (∃ r ∈ s.pool.requests, r.tracker = t) ↔ (s.tracker t).marker ≠ .none
  activeOnly : s.station.state ≠ .active → ∀ t : Fin 8, (s.tracker t).state = .free

/-- The run of context `o` is `first` with `count`: the lowest missing number, and the absent numbers from it on up to the
eighth, the first present number, or the horizon (R51). -/
structure RunIs (s : State) (o : Station) (first : SeqNum) (count : Nat) : Prop where
  missing : s.missing o first
  lowest : ∀ n : SeqNum, s.missing o n → (first - (s.ctx o).nextDue).toNat ≤ (n - (s.ctx o).nextDue).toNat
  size : 1 ≤ count ∧ count ≤ 8
  absent : ∀ i, i < count → s.missing o (first + BitVec.ofNat 16 i)
  ends : count = 8 ∨ first + BitVec.ofNat 16 count = (s.ctx o).horizon + 1 ∨ s.holds o (first + BitVec.ofNat 16 count)

/-- Every tracker that serves an origin does so in the epoch its context follows, with the run as context and store stand (R50,
R51, R52); and while the station is ACTIVE no GAPPED origin waits while a tracker is FREE (R54). -/
structure RunsCurrent (s : State) : Prop where
  epoch : ∀ i : Fin 8, (s.tracker i).state ≠ .free → (s.tracker i).epoch = (s.ctx (s.tracker i).origin).epoch
  synced : ∀ i : Fin 8, (s.tracker i).state ≠ .free → (s.ctx (s.tracker i).origin).isSynced = true
  run : ∀ i : Fin 8, (s.tracker i).state ≠ .free → RunIs s (s.tracker i).origin (s.tracker i).runFirst (s.tracker i).runCount
  served : s.station.state = .active → (∃ i : Fin 8, (s.tracker i).state = .free) →
    ∀ o : Station, (s.ctx o).state = .gapped → (s.ctx o).trackerHeld = true

/-! ### Submission Unit (chapter 6) -/

/-- The Submission Unit: the DATA duty queue holds the numbers from the next untransmitted value up to next-seq, none missing
(R118, R121), at most 32 of them, with room kept for the message in progress (R116), only the head SENDING, nothing queued in
SETUP, and a cell RESERVED exactly while a message is being taken (Table 6.2). -/
structure SubmissionSound (s : State) : Prop where
  consecutive : s.submission.queue.map (fun x => x.seq) =
    (List.range s.submission.queue.length).map fun i => s.submission.nextUntx + BitVec.ofNat 16 i
  nextSeq : s.submission.nextSeq = s.submission.nextUntx + BitVec.ofNat 16 s.submission.queue.length
  room : s.submission.queue.length ≤ Config.dataQueueSize
  roomKept : s.submission.asm = .assembling ∨ s.submission.asm = .awaitingEnd →
    s.submission.queue.length < Config.dataQueueSize
  headOnly : ∀ x ∈ s.submission.queue.tail, x.marker = .waiting
  setupEmpty : s.station.state = .setup → s.submission.queue = []
  reserved : s.store.reserved.isSome = true ↔ s.submission.asm = .assembling ∨ s.submission.asm = .awaitingEnd

/-! ### Replay Duty Pool (chapter 4) -/

/-- The entry of key `k` is present and carries TX. -/
def Store.heldWithTx (st : Store) (k : Key) : Prop := ∃ e ∈ st.own ++ st.peer, e.key = k ∧ e.pins.tx = true

/-- The duty pool: timers in DELAY alone (Table 4.2), the eligible order holding each ELIGIBLE or SENDING duty once (R74), one
duty for a key and its entry present with TX (R73), likewise the messages of the DATA duty queue (R118), no entry's TX held
by two (R5), and nothing outside ACTIVE (R89). -/
structure DutiesSound (s : State) : Prop where
  timers : ∀ (d : Fin 16) (x : Duty), s.duty d = some x → (x.timer.isSome = true ↔ x.state = .delay)
  eligibleNodup : s.duties.eligible.Nodup
  eligible : ∀ d : Fin 16, d ∈ s.duties.eligible ↔ ∃ x, s.duty d = some x ∧ x.state ≠ .delay
  single : ∀ (d e : Fin 16) (x y : Duty), s.duty d = some x → s.duty e = some y → x.key = y.key → d = e
  pinned : ∀ (d : Fin 16) (x : Duty), s.duty d = some x → s.store.heldWithTx x.key
  queuePinned : ∀ x ∈ s.submission.queue, s.store.heldWithTx (s.ownKey x.seq)
  apart : ∀ (d : Fin 16) (x : Duty), s.duty d = some x → ∀ y ∈ s.submission.queue, x.key ≠ s.ownKey y.seq
  activeOnly : s.station.state ≠ .active → ∀ d : Fin 16, s.duty d = none

/-! ### Own context and Delivery Queue (2.9, chapter 5) -/

/-- The own context follows the station's own publishing (R47, R48): its epoch is the own epoch and its floor its next-due;
with LOOPBACK on its horizon is one before the next untransmitted value and every own number from next-due up to next-seq is
present with DUE, no other own entry carrying it; with LOOPBACK off it stays as reset left it and no own entry carries
DUE. -/
structure OwnContextSound (s : State) : Prop where
  state : (s.ctx s.stn).state = .own
  epoch : (s.ctx s.stn).epoch = s.submission.ownEpoch
  floor : (s.ctx s.stn).lossFloor = (s.ctx s.stn).nextDue
  horizon : s.setup.loopback = true → (s.ctx s.stn).horizon + 1 = s.submission.nextUntx
  deliverable : s.setup.loopback = true → ∀ i, i < offset (s.ctx s.stn).nextDue s.submission.nextSeq →
    s.store.deliverable (s.ownKey ((s.ctx s.stn).nextDue + BitVec.ofNat 16 i)) = true
  dueCount : s.setup.loopback = true →
    s.store.own.countP (fun e => e.pins.due) = offset (s.ctx s.stn).nextDue s.submission.nextSeq
  off : s.setup.loopback = false → (s.ctx s.stn).nextDue = 0 ∧ (s.ctx s.stn).horizon = 65535 ∧
    ∀ e ∈ s.store.own, e.pins.due = false
  setupFresh : s.station.state = .setup →
    (s.ctx s.stn).nextDue = 0 ∧ (s.ctx s.stn).horizon = 65535 ∧ s.submission.nextSeq = 0 ∧ s.submission.nextUntx = 0

/-- The keys of the MESSAGE records of the queue, in queue order. -/
def Delivery.messageKeys (d : Delivery) : List Key :=
  d.queue.filterMap fun r => match r with
    | .message k => some k
    | .lost _ _ _ _ => none
    | .restart _ _ _ _ => none

/-- The Delivery Queue: at most 128 records, every MESSAGE record referencing an entry that carries HANDED, no entry
referenced by more than one (R99), and no entry carrying both DUE and HANDED (R16). -/
structure DeliverySound (s : State) : Prop where
  size : s.delivery.queue.length ≤ Config.deliverySize
  handed : ∀ k ∈ s.delivery.messageKeys, ∃ e ∈ s.store.own ++ s.store.peer, e.key = k ∧ e.pins.handed = true
  single : s.delivery.messageKeys.Nodup
  exclusive : ∀ e ∈ s.store.own ++ s.store.peer, ¬ (e.pins.due = true ∧ e.pins.handed = true)

/-! ### Payloads -/

/-- Every entry holds a payload of 1 to 120 bytes (R3, Table 1.8), which the Submission Unit and the Trunk Interface assure:
the bytes in the RESERVED cell are those of the payload words taken. -/
structure PayloadsSound (s : State) : Prop where
  entries : ∀ e ∈ s.store.own ++ s.store.peer, 1 ≤ e.payload.length ∧ e.payload.length ≤ Config.maxPayload
  assembling : s.submission.asm = .assembling →
    1 ≤ s.submission.length ∧ s.submission.length ≤ Config.maxPayload ∧
      s.submission.expected = (s.submission.length + 1) / 2 ∧ s.submission.taken < s.submission.expected ∧
      ∀ bytes, s.store.reserved = some bytes → bytes.length = 2 * s.submission.taken

/-! ### The transmitter carries one frame -/

/-- Whatever is on the wire is the Scheduler's commitment (R81, R58, R118, R124): a SENDING duty, an ON_WIRE request and a
SENDING head are each there only while the Scheduler is SENDING with that very duty as its commitment. And a commitment in
hold-off is there to be taken: when the duty leaves its owner, the commitment is withdrawn (R131). -/
structure WireSound (s : State) : Prop where
  replay : ∀ (d : Fin 16) (x : Duty), s.duty d = some x → x.state = .sending →
    s.sched.state = .sending ∧ s.sched.commitment.map (fun c => c.duty) = some (.replay d)
  request : ∀ i : Fin 8, (s.tracker i).marker = .onWire →
    s.sched.state = .sending ∧ s.sched.commitment.map (fun c => c.duty) = some (.gapreq i)
  data : ∀ x ∈ s.submission.queue, x.marker = .sending →
    s.sched.state = .sending ∧ s.sched.commitment.map (fun c => c.duty) = some .data
  heldReplay : s.sched.state = .holdoff → ∀ d : Fin 16, s.sched.commitment.map (fun c => c.duty) = some (.replay d) →
    (s.duty d).map (fun x => x.state) = some .eligible
  heldRequest : s.sched.state = .holdoff → ∀ i : Fin 8, s.sched.commitment.map (fun c => c.duty) = some (.gapreq i) →
    (s.tracker i).marker = .pending
  heldData : s.sched.state = .holdoff → s.sched.commitment.map (fun c => c.duty) = some .data →
    s.submission.queue.head?.map (fun h => h.marker) = some .waiting
  heldBeacon : s.sched.state = .holdoff → s.sched.commitment.map (fun c => c.duty) = some .beacon →
    s.sched.beaconDuty = true

/-! ### Setup record -/

/-- Every setup field lies in its range (Table 9.2). -/
structure SetupSound (s : State) : Prop where
  ownShare : 8 ≤ s.setup.ownShare ∧ s.setup.ownShare ≤ 512
  reqBase : s.setup.reqBase ≤ 255
  repairBase : s.setup.repairBase ≤ 255
  repairTimeout : 32 ≤ s.setup.repairTimeout ∧ s.setup.repairTimeout ≤ 4095
  attemptLimit : 1 ≤ s.setup.attemptLimit ∧ s.setup.attemptLimit ≤ 7
  beaconInterval : 256 ≤ s.setup.beaconInterval ∧ s.setup.beaconInterval ≤ 65535
  listenPeriod : 256 ≤ s.setup.listenPeriod ∧ s.setup.listenPeriod ≤ 65535
  dqAeLevel : s.setup.dqAeLevel ≤ 64
  dqAfOffset : s.setup.dqAfOffset ≤ 64

/-! ### Control Channel (chapter 10) -/

/-- The parser collects a command only while an argument of it is still to come (R174, Table 10.1). -/
def ParserSound (s : State) : Prop :=
  ∀ (c : Command) (args : List Word), s.control.parser = .collecting c args → args.length < c.argCount

/-! ### Words that statements use -/

/-- The commands one after another, stopping where one does not answer a next state. -/
def execAll : List Instr → State → Host.Outcome State Fault Refusal
  | [], s => .next s
  | c :: cs, s =>
    match exec c s with
    | .next t => execAll cs t
    | .fault r => .fault r
    | .refused r => .refused r

/-- A command that the host writes now is taken: MRST negated, the parser IDLE, the response buffer empty (R174, R177). -/
structure HostReady (s : State) : Prop where
  released : s.station.mrst = false
  idle : s.control.parser = .idle
  read : s.control.response = []

/-- `s` with an answer in the response buffer and nothing of it taken: word 0 carries the status code of Table 11.4 in its high
byte and the number of data words in its low byte (R176, R188). -/
def State.answered (s : State) (st : Status) (data : List Word) : State :=
  s.withControl
    { parser := .idle
      response :=
        BitVec.ofNat 16 (256 * (match st with
          | .done => 1
          | .refusedState => 2
          | .refusedField => 3
          | .refusedValue => 4
          | .empty => 5
          | .malformed => 6) + data.length) :: data
      readPos := 0 }

/-- A tracker after the exhausted report (R68). -/
def Tracker.afterExhausted (tr : Tracker) : Tracker :=
  if tr.state = .delay ∨ tr.state = .wait then
    { tr with state := .parked, timer := .stopped, marker := if tr.marker = .pending then .none else tr.marker }
  else tr

/-- A tracker after the claimable report, `delay` being the slots of its request delay (R69, R57). -/
def Tracker.afterClaimable (delay : Nat) (tr : Tracker) : Tracker :=
  if tr.state = .parked then
    { tr with state := .delay, timer := if tr.marker = .none then .requestDelay delay else .stopped }
  else tr

/-- A heard GAPREQ suppresses the tracker's own request: the tracker is in DELAY, its request not on the wire, and its run first
is among the numbers asked for (R66). -/
def Tracker.suppressed (tr : Tracker) (origin : Station) (epoch : Epoch) (first : SeqNum) (count : Nat) : Bool :=
  decide (tr.origin = origin ∧ tr.epoch = epoch ∧ (tr.runFirst - first).toNat < count ∧ tr.state = .delay ∧
    tr.marker ≠ .onWire)

/-- A tracker claimed for origin `o` with the run `first`, `count` (R54, R57). -/
def State.claimedTracker (s : State) (o : Station) (first : SeqNum) (count : Nat) : Tracker :=
  { state := if s.peerClaimable = 0 then .parked else .delay
    origin := o
    epoch := (s.ctx o).epoch
    runFirst := first
    runCount := count
    attempts := 0
    timer := if s.peerClaimable = 0 then .stopped else .requestDelay (s.setup.reqBase + (s.stn - o).toNat)
    marker := .none
    asked := none
    lastOrigin := o }

/-- The Scheduler with its commitment released (R130, R131). -/
def Scheduler.released (x : Scheduler) : Scheduler := { x with state := .idle, commitment := none, holdoff := none }

/-- The host's thirteen commands by their own rows, with any operands. -/
def isHostCommand : Instr → Bool
  | .masterReset => false
  | .mrstRelease _ _ => false
  | .partialReset => false
  | .dataWord _ _ => false
  | .controlWord _ _ => false
  | .set _ _ => true
  | .join => true
  | .leave => true
  | .recover => true
  | .status => true
  | .readContext _ => true
  | .readCounters => true
  | .clearCounters => true
  | .readEvents => true
  | .ackEvents _ => true
  | .setEventMask _ => true
  | .setEventPriority _ => true
  | .discardHead => true
  | .deliveryTake => false
  | .responseTake => false
  | .deliveryTurn => false
  | .lineActivity => false
  | .lineIdle => false
  | .selectionCommit => false
  | .holdoffRunsOut => false
  | .frameEnd _ => false
  | .collision _ => false
  | .jamEnd => false
  | .fragment _ => false
  | .frameError _ => false
  | .clash _ => false
  | .rxData _ => false
  | .rxReplay _ => false
  | .rxGapreq _ => false
  | .rxBeacon _ => false
  | .requestDelayRunsOut _ => false
  | .repairTimeoutRunsOut _ => false
  | .replayDelayRunsOut _ => false
  | .beaconTimerRunsOut => false
  | .listenTimerRunsOut => false
  | .silenceTimerRunsOut _ => false
  | .silentCellEndsSkip => false

/-- The reset lines' commands. -/
def isReset : Instr → Bool
  | .masterReset => true
  | .mrstRelease _ _ => true
  | .partialReset => true
  | _ => false

/-- The burst of a row that is decided at its silent cell (R154). -/
def burstOf : Instr → Option (List BurstCell)
  | .frameError cells => some cells
  | .clash cells => some cells
  | .rxData cells => some cells
  | .rxReplay cells => some cells
  | .rxGapreq cells => some cells
  | .rxBeacon cells => some cells
  | _ => none

/-- The receive path takes the coming burst from its first cell: it waits, or line activity has just taken it to HUNT. -/
def State.takesBurst (s : State) : Prop :=
  s.station.mrst = false ∧ (s.trunk.rx.path = .waiting ∨ s.trunk.rx = RxPath.at .hunt)

/-- Payload bytes two in a word, the earlier in the high half; the low half of the last word of an odd length is `pad`
(R114, R187). -/
def wordsOf (pad : Byte) : List Byte → List Word
  | [] => []
  | [a] => [BitVec.ofNat 16 (256 * a.toNat + pad.toNat)]
  | a :: b :: rest => BitVec.ofNat 16 (256 * a.toNat + b.toNat) :: wordsOf pad rest

/-- What both resets leave of every block but Station Control and the Event Unit, the own epoch then being `e` (R21, R22, R26,
R72, R90, R107, R108, R144, R158, R179, Tables 2.2, 6.1, 7.1), and the output lines. -/
structure Cleared (t : State) (e : Epoch) : Prop where
  store : t.store = { own := [], peer := [], reserved := none }
  ownFree : t.ownFree = t.setup.ownShare
  peerFree : t.peerFree = 1024 - t.setup.ownShare
  peers : ∀ o : Station, o ≠ t.stn → t.ctx o =
    { state := .unsynced, epoch := 0, nextDue := 0, horizon := 0, lossFloor := 0, restartPending := false,
      restartOldEpoch := 0, restartCount := 0, heardSinceReset := false, silenceTimer := none, silent := false,
      trackerHeld := false }
  own : t.ctx t.stn =
    { state := .own, epoch := e, nextDue := 0, horizon := 65535, lossFloor := 0, restartPending := false,
      restartOldEpoch := 0, restartCount := 0, heardSinceReset := false, silenceTimer := none, silent := false,
      trackerHeld := false }
  trackers : ∀ i : Fin 8, (t.tracker i).state = .free ∧ (t.tracker i).timer = .stopped ∧ (t.tracker i).marker = .none ∧
    (t.tracker i).lastOrigin = 31
  requests : t.pool.requests = []
  duties : ∀ d : Fin 16, t.duty d = none
  eligible : t.duties.eligible = []
  delivery : t.delivery = { queue := [], readPos := 0, lastServed := 31 }
  submission : t.submission.asm = .idle ∧ t.submission.taken = 0 ∧ t.submission.ownEpoch = e ∧ t.submission.nextSeq = 0 ∧
    t.submission.nextUntx = 0 ∧ t.submission.queue = []
  sched : t.sched =
    { state := .idle, commitment := none, holdoff := none, beaconTimer := none, beaconDuty := false, beaconCount := 0,
      abandons := 0 }
  trunk : t.trunk.lineIdle = false ∧ t.trunk.rx.path = .off ∧ t.trunk.rx.bytes = [] ∧ t.trunk.tx = none
  control : t.control = { parser := .idle, response := [], readPos := 0 }
  flags : t.events.flags = 0
  counters : t.counters.words = List.replicate 10 0
  stopped : t.station.listenTimer = none ∧ t.station.muteReason = none
  lines : t.rval = false ∧ t.dqAe = true ∧ t.dqAf = false ∧ t.alertHi = false ∧ t.alertLo = false ∧ t.out.rlast = false

/-- What leaving ACTIVE leaves of the pools and the Scheduler (R71, R89, R142, R143): no tracker serves, no duty is in use,
each entry a duty held has lost that duty's TX pin, the entries being otherwise as they were and in their order, and the
Scheduler has no hold-off, no BEACON duty and no beacon timer, a frame or jam in flight going on. -/
structure QuitActive (s t : State) : Prop where
  trackers : ∀ i : Fin 8, (t.tracker i).state = .free
  freed : ∀ i : Fin 8, (s.tracker i).state ≠ .free → (t.tracker i).timer = .stopped ∧ (t.tracker i).marker = .none ∧
    (t.tracker i).lastOrigin = (s.tracker i).origin
  duties : ∀ d : Fin 16, t.duty d = none
  own : t.store.own.map (fun e => (e.key, e.payload)) = s.store.own.map fun e => (e.key, e.payload)
  peer : t.store.peer.map (fun e => (e.key, e.payload)) = s.store.peer.map fun e => (e.key, e.payload)
  reserved : t.store.reserved = s.store.reserved
  pins : ∀ k : Key, t.store.find k = (s.store.find k).map fun e =>
    if ∃ d : Fin 16, (s.duty d).map (fun x => x.key) = some k then { e with pins := { e.pins with tx := false } } else e
  sched : t.sched =
    if s.sched.state = .holdoff then
      { s.sched with
        state := .idle, commitment := none, holdoff := none, beaconTimer := none, beaconDuty := false, beaconCount := 0 }
    else { s.sched with beaconTimer := none, beaconDuty := false, beaconCount := 0 }
  queue : t.submission = s.submission
  delivery : t.delivery = s.delivery
  counters : t.counters = s.counters

/-- The four fields that say where a context stands in its origin's numbers. -/
def Context.place (c : Context) : Epoch × SeqNum × SeqNum × SeqNum := (c.epoch, c.nextDue, c.horizon, c.lossFloor)

end Sys2Proof.Machine
end

