-- ==== Sys2Proof/Certificates/Slice0/Obligations.lean ====
section
/-! DEFINITION. The statements for the provers. Each docstring names the rules or the log entries a statement rests on. -/

open Sys2Proof Sys2Proof.Machine

/-! ### The machine -/

/-- A step is exec of the front command on the state with the queue's rest. The second clause is the model's choice (log
entry 1): on an empty queue the block idles. -/
def Obligations.StepTakesFrontCommand : Prop :=
  (∀ (c : Instr) (rest : List Instr) (s : State), step (s.withPending (c :: rest)) = exec c (s.withPending rest)) ∧
    ∀ s : State, s.pending = [] → step s = .next s

/-- No command stops the part, and none touches the queue of waiting commands. That a command whose happening does not arise
is answered too is the model's choice (log entry 2). -/
def Obligations.EveryCommandAnswersNext : Prop :=
  ∀ (c : Instr) (s : State), ∃ t : State, exec c s = .next t ∧ t.pending = s.pending

/-! ### Resets (R160 to R162) -/

/-- MASTER_RESET: every block cleared, own epoch 0, the setup record at the defaults of Table 9.2, every mask bit set and
every priority bit clear, WRDY low; the straps' samples stand (R160) and MRST is asserted. And while MRST is asserted a word on
either channel of the write side, and so every host command, changes nothing, and a take on either channel of the read side
returns 0 without RLAST and raises nothing (R161). -/
def Obligations.MasterResetLeaves : Prop :=
  (∀ s : State, ∃ t : State, exec .masterReset s = .next t ∧ Cleared t 0 ∧
    t.station =
      { state := .setup, muteReason := none, stn := s.stn, rate := s.station.rate, listenTimer := none, mrst := true
        setup :=
          { ownShare := 128, reqBase := 8, repairBase := 16, repairTimeout := 512, attemptLimit := 3,
            beaconInterval := 4096, listenPeriod := 8192, loopback := false, dqAeLevel := 8, dqAfOffset := 8,
            initialEpoch := 0,
            classPriority := { replay := false, gapreq := false, data := false, beacon := false } } } ∧
    t.events = { flags := 0, mask := BitVec.allOnes 11, priority := 0 } ∧ t.wrdy = false ∧ t.pending = s.pending) ∧
  ∀ s : State, s.station.mrst = true →
    (∀ (w : Word) (wend : Bool), exec (.dataWord w wend) s = .next s ∧ exec (.controlWord w wend) s = .next s) ∧
    (∀ c : Instr, isHostCommand c = true → exec c s = .next s) ∧
    exec .deliveryTake s = .next (s.withOut { rd := 0, rlast := false }) ∧
    exec .responseTake s = .next (s.withOut { rd := 0, rlast := false })

/-- MRST_RELEASE: the straps are sampled and the station is in SETUP with every block as a master reset leaves it. The second
clause is the model's choice (log entry 2): MRST that is not asserted cannot be released. -/
def Obligations.MrstReleaseStarts : Prop :=
  ∀ (stn : Station) (rate : BitVec 2) (s : State),
    (s.station.mrst = true → ∃ t : State, exec (.mrstRelease stn rate) s = .next t ∧ Cleared t 0 ∧
      t.station =
        { state := .setup, muteReason := none, stn := stn, rate := rate, setup := Setup.defaults, listenTimer := none,
          mrst := false } ∧
      t.events = { flags := 0, mask := BitVec.allOnes 11, priority := 0 } ∧ t.wrdy = false ∧ t.pending = s.pending) ∧
    (s.station.mrst = false → exec (.mrstRelease stn rate) s = .next s)

/-- PARTIAL_RESET: every block cleared under the next own epoch, READY, with the setup record, the straps, the event mask and
the event priority kept and WRDY high; no effect while MRST is asserted (R161). -/
def Obligations.PartialResetLeaves : Prop :=
  ∀ s : State,
    (s.station.mrst = false → SetupSound s → ∃ t : State, exec .partialReset s = .next t ∧
      Cleared t (s.submission.ownEpoch + 1) ∧
      t.station = { s.station with state := .ready, muteReason := none, listenTimer := none } ∧
      t.events = { s.events with flags := 0 } ∧ t.wrdy = true ∧ t.pending = s.pending) ∧
    (s.station.mrst = true → exec .partialReset s = .next s)

/-! ### Invariants that every step keeps -/

/-- The state after a master reset, with MRST asserted, has every invariant below. -/
def Obligations.ResetStateIsSound : Prop :=
  ModeSound State.reset ∧ SetupSound State.reset ∧ StoreSound State.reset ∧ ContextsSound State.reset ∧
    GapsDecided State.reset ∧ TrackersSound State.reset ∧ RunsCurrent State.reset ∧ SubmissionSound State.reset ∧
    DutiesSound State.reset ∧ OwnContextSound State.reset ∧ DeliverySound State.reset ∧ PayloadsSound State.reset ∧
    WireSound State.reset ∧ ParserSound State.reset

/-- Station state, mute reason, timers, receive path, Scheduler and frame in flight go together. -/
def Obligations.ModesStayTogether : Prop := ∀ s t : State, step s = .next t → ModeSound s → ModeSound t

/-- Setup fields stay in their ranges (R163, R164). -/
def Obligations.SetupStaysInRange : Prop := ∀ s t : State, step s = .next t → SetupSound s → SetupSound t

/-- The store keeps its canonical form: distinct keys, entries in the share of their origin, shares within their size. -/
def Obligations.StoreStaysSound : Prop := ∀ s t : State, step s = .next t → ModeSound s → StoreSound s → StoreSound t

/-- The contexts keep the bounds of R24, and DUE stays with numbers still to be delivered (R25). -/
def Obligations.ContextsStayBounded : Prop :=
  ∀ s t : State, step s = .next t → ModeSound s → StoreSound s → ContextsSound s → ContextsSound t

/-- GAPPED says exactly that some number of [base, horizon] has its key absent from the store (R25). For a behind frame whose
insert evicts an entry of its own context that is the model's choice, R32 leaving the state unchanged (log entry 23). -/
def Obligations.GapsStayDecided : Prop :=
  ∀ s t : State, step s = .next t → ModeSound s → StoreSound s → ContextsSound s → GapsDecided s → GapsDecided t

/-- Trackers stay consistent, one to an origin, with true flags and a true request list, and FREE outside ACTIVE. -/
def Obligations.TrackersStaySound : Prop := ∀ s t : State, step s = .next t → TrackersSound s → TrackersSound t

/-- The run of every tracker in service stays what context and store give (R51, R52), in the context's epoch (R70), and in ACTIVE
no origin waits while a tracker is FREE (R54). For a behind frame whose insert evicts an entry of its own context that rests on
the model's choice (log entry 23). -/
def Obligations.RunsStayCurrent : Prop :=
  ∀ s t : State, step s = .next t → ModeSound s → StoreSound s → ContextsSound s → GapsDecided s → TrackersSound s →
    RunsCurrent s → RunsCurrent t

/-- The DATA duty queue holds the numbers from the next untransmitted value to next-seq, none missing. -/
def Obligations.SubmissionStaysSound : Prop :=
  ∀ s t : State, step s = .next t → ModeSound s → StoreSound s → SubmissionSound s → SubmissionSound t

/-- Every duty's entry stays present with TX, one duty for a key, none outside ACTIVE (R73, R74, R89). -/
def Obligations.DutiesStaySound : Prop :=
  ∀ s t : State, step s = .next t → ModeSound s → StoreSound s → SubmissionSound s → DutiesSound s → DutiesSound t

/-- The own context follows the station's publishing (R47, R48). -/
def Obligations.OwnContextStaysSound : Prop :=
  ∀ s t : State, step s = .next t → ModeSound s → StoreSound s → SubmissionSound s → OwnContextSound s → OwnContextSound t

/-- Every MESSAGE record references an entry that carries HANDED, and no entry is referenced twice (R99). -/
def Obligations.DeliveryStaysSound : Prop :=
  ∀ s t : State, step s = .next t → ModeSound s → StoreSound s → ContextsSound s → SubmissionSound s →
    OwnContextSound s → DeliverySound s → DeliverySound t

/-- Every entry holds 1 to 120 payload bytes (R3, Table 1.8). -/
def Obligations.PayloadsStaySound : Prop :=
  ∀ s t : State, step s = .next t → ModeSound s → SubmissionSound s → PayloadsSound s → PayloadsSound t

/-- The transmitter carries one frame, and its duty is the commitment; and the commitment of a hold-off is one that its owner
still holds ready to be taken, being withdrawn when it is cancelled, suppressed, parked or freed (R131). -/
def Obligations.WireStaysSound : Prop :=
  ∀ s t : State, step s = .next t → ModeSound s → TrackersSound s → SubmissionSound s → WireSound s → WireSound t

/-- The parser collects a command only while an argument of it is still to come (R174). -/
def Obligations.ParserStaysSound : Prop := ∀ s t : State, step s = .next t → ParserSound s → ParserSound t

/-! ### Claims of the Retention Store (chapter 1) -/

/-- The insert claim (R8 to R11), in the share that the origin gives (R1): PRESENT with the held entry's pin set, and nothing
stored; else a FREE cell is
taken; else the oldest entry without a pin is evicted and the younger keep their order; else REFUSED and nothing stored. The
new entry is the youngest. -/
def Obligations.InsertClaimDecides : Prop :=
  ∀ (stn : Station) (share : Nat) (st : Store) (e : Entry),
    (∀ x : Entry, st.find e.key = some x → st.insert stn share e = (.present x.pins, st)) ∧
    ((∀ x ∈ st.own ++ st.peer, x.key ≠ e.key) → e.key.origin ≠ stn →
      (0 < st.peerFree share → st.insert stn share e = (.stored none, { st with peer := st.peer ++ [e] })) ∧
      (st.peerFree share = 0 → ∀ (older younger : List Entry) (v : Entry), st.peer = older ++ v :: younger →
        (∀ x ∈ older, x.pins.isEmpty = false) → v.pins.isEmpty = true →
        st.insert stn share e = (.stored (some v.key), { st with peer := older ++ younger ++ [e] })) ∧
      (st.peerClaimable share = 0 → st.insert stn share e = (.refused, st))) ∧
    ((∀ x ∈ st.own ++ st.peer, x.key ≠ e.key) → e.key.origin = stn →
      (0 < st.ownFree share → st.insert stn share e = (.stored none, { st with own := st.own ++ [e] })) ∧
      (st.ownFree share = 0 → ∀ (older younger : List Entry) (v : Entry), st.own = older ++ v :: younger →
        (∀ x ∈ older, x.pins.isEmpty = false) → v.pins.isEmpty = true →
        st.insert stn share e = (.stored (some v.key), { st with own := older ++ younger ++ [e] })) ∧
      (st.ownClaimable share = 0 → st.insert stn share e = (.refused, st)))

/-- Reservation, completion and release, each with its answer (R13, R14). -/
def Obligations.ReservationClaimsDecide : Prop :=
  ∀ (share : Nat) (st : Store),
    (st.reserved.isSome = true → st.reserve share = none) ∧
    (st.reserved = none →
      (0 < st.ownFree share → st.reserve share = some { st with reserved := some [] }) ∧
      (st.ownFree share = 0 → ∀ (older younger : List Entry) (v : Entry), st.own = older ++ v :: younger →
        (∀ x ∈ older, x.pins.isEmpty = false) → v.pins.isEmpty = true →
        st.reserve share = some { st with own := older ++ younger, reserved := some [] }) ∧
      (st.ownClaimable share = 0 → st.reserve share = none)) ∧
    (∀ st' : Store, st.reserve share = some st' → st'.ownClaimable share + 1 = st.ownClaimable share) ∧
    (∀ (k : Key) (pins : Pins),
      (st.reserved = none → st.complete k pins = (.noneReserved, st)) ∧
      (∀ bytes : List Byte, st.reserved = some bytes →
        ((∃ x ∈ st.own ++ st.peer, x.key = k) → st.complete k pins = (.present, { st with reserved := none })) ∧
        ((∀ x ∈ st.own ++ st.peer, x.key ≠ k) → st.complete k pins =
          (.stored,
            { st with own := st.own ++ [{ key := k, payload := bytes, pins := pins }], reserved := none })))) ∧
    (st.reserved = none → st.release = (.noneReserved, st)) ∧
    (∀ bytes : List Byte, st.reserved = some bytes → st.release = (.released, { st with reserved := none }))

/-- The claims on pins with their answers (R15 to R18): each changes one pin of the entry it names (the restart release: DUE of
every entry of the origin and epoch, a hand claim after it being NOT_DUE) and nothing else, and moves no entry in the age order
(R7). A lookup answers the entry's length, share and pins, and a read its length and bytes (R19). -/
def Obligations.PinClaimsChangeOnePin : Prop :=
  ∀ (st : Store) (k : Key),
    (st.find k = none → st.pinTx k = (.absent, st) ∧ st.hand k = (.absent, st) ∧ st.clearHanded k = (.absent, st) ∧
      st.clearTx k = (.absent, st) ∧ st.lookup k = .absent ∧ st.read k = .absent) ∧
    (∀ e : Entry, st.find k = some e →
      (e.pins.tx = true → st.pinTx k = (.already, st)) ∧
      (e.pins.tx = false → (st.pinTx k).1 = .pinned ∧
        (st.pinTx k).2.find k = some { e with pins := { e.pins with tx := true } }) ∧
      (e.pins.due = true → (st.hand k).1 = .handed ∧
        (st.hand k).2.find k = some { e with pins := { e.pins with due := false, handed := true } }) ∧
      (e.pins.due = false → st.hand k = (.notDue, st)) ∧
      ((st.restartRelease k.origin k.epoch).hand k = (.notDue, st.restartRelease k.origin k.epoch)) ∧
      (e.pins.handed = true → (st.clearHanded k).1 = .cleared ∧
        (st.clearHanded k).2.find k = some { e with pins := { e.pins with handed := false } }) ∧
      (e.pins.handed = false → st.clearHanded k = (.notCarried, st)) ∧
      (e.pins.tx = true → (st.clearTx k).1 = .cleared ∧
        (st.clearTx k).2.find k = some { e with pins := { e.pins with tx := false } }) ∧
      (e.pins.tx = false → st.clearTx k = (.notCarried, st)) ∧
      ((∃ x ∈ st.own, x.key = k) → st.lookup k = .present e.payload.length .own e.pins) ∧
      ((∀ x ∈ st.own, x.key ≠ k) → st.lookup k = .present e.payload.length .peer e.pins) ∧
      st.read k = .bytes e.payload.length e.payload) ∧
    (∀ st' : Store,
        st' = (st.pinTx k).2 ∨ st' = (st.hand k).2 ∨ st' = (st.clearHanded k).2 ∨ st' = (st.clearTx k).2 →
      st'.own.map (fun e => (e.key, e.payload)) = st.own.map (fun e => (e.key, e.payload)) ∧
      st'.peer.map (fun e => (e.key, e.payload)) = st.peer.map (fun e => (e.key, e.payload)) ∧
      st'.reserved = st.reserved ∧ ∀ k' : Key, k' ≠ k → st'.find k' = st.find k') ∧
    (∀ (origin : Station) (epoch : Epoch),
      (∀ k' : Key, (st.restartRelease origin epoch).find k' =
        if k'.origin = origin ∧ k'.epoch = epoch then
          (st.find k').map fun e => { e with pins := { e.pins with due := false } }
        else st.find k') ∧
      (st.restartRelease origin epoch).own.map (fun e => (e.key, e.payload)) = st.own.map (fun e => (e.key, e.payload)) ∧
      (st.restartRelease origin epoch).peer.map (fun e => (e.key, e.payload)) =
        st.peer.map (fun e => (e.key, e.payload)) ∧
      (st.restartRelease origin epoch).reserved = st.reserved)

/-- A claim that takes the peer-share claimable count to 0 parks every tracker in DELAY and WAIT, withdrawing pending
requests, and the Scheduler's commitment when it is one of them (R131); one that takes it from 0 up resumes every PARKED
tracker; any other claim reports nothing (R20, R68, R69). -/
def Obligations.StoreReportsParkAndResume : Prop :=
  ∀ (s : State) (st : Store),
    ((s.peerClaimable = 0 ↔ (s.withStore st).peerClaimable = 0) → s.applyStore st = s.withStore st) ∧
    (s.peerClaimable ≠ 0 → (s.withStore st).peerClaimable = 0 →
      (∀ i : Fin 8, (s.applyStore st).tracker i =
        if (s.tracker i).state = .delay ∨ (s.tracker i).state = .wait then
          { s.tracker i with
            state := .parked
            timer := .stopped
            marker := if (s.tracker i).marker = .pending then .none else (s.tracker i).marker }
        else s.tracker i) ∧
      (s.applyStore st).pool.requests = s.pool.requests.filter (fun r =>
        !(((s.tracker r.tracker).state == .delay || (s.tracker r.tracker).state == .wait) &&
          (s.tracker r.tracker).marker == .pending)) ∧
      (∀ i : Fin 8, s.sched.state = .holdoff → s.sched.commitment.map (fun c => c.duty) = some (.gapreq i) →
        (s.applyStore st).sched =
          if ((s.tracker i).state = .delay ∨ (s.tracker i).state = .wait) ∧ (s.tracker i).marker = .pending then
            s.sched.released
          else s.sched) ∧
      ((s.sched.state ≠ .holdoff ∨ ∀ i : Fin 8, s.sched.commitment.map (fun c => c.duty) ≠ some (.gapreq i)) →
        (s.applyStore st).sched = s.sched)) ∧
    (s.peerClaimable = 0 → (s.withStore st).peerClaimable ≠ 0 →
      (∀ i : Fin 8, (s.applyStore st).tracker i =
        if (s.tracker i).state = .parked then
          { s.tracker i with
            state := .delay
            timer :=
              if (s.tracker i).marker = .none then
                .requestDelay (s.setup.reqBase + (s.stn - (s.tracker i).origin).toNat)
              else .stopped }
        else s.tracker i) ∧
      (s.applyStore st).pool.requests = s.pool.requests ∧ (s.applyStore st).sched = s.sched) ∧
    (s.applyStore st).store = st ∧ (s.applyStore st).contexts = s.contexts ∧ (s.applyStore st).duties = s.duties ∧
    (s.applyStore st).delivery = s.delivery ∧ (s.applyStore st).submission = s.submission ∧
    (s.applyStore st).station = s.station ∧ (s.applyStore st).counters = s.counters ∧
    (s.applyStore st).events = s.events

/-- An entry that carries HANDED or TX before a command is held after it, with its payload, whatever the command but a reset
(R6). DUE is left out, since a restart in the same frame may release it first (R17). -/
def Obligations.PinnedEntriesStay : Prop :=
  ∀ (c : Instr) (s t : State), isReset c = false → exec c s = .next t →
    ∀ e ∈ s.store.own ++ s.store.peer, e.pins.handed = true ∨ e.pins.tx = true →
      ∃ e' ∈ t.store.own ++ t.store.peer, e'.key = e.key ∧ e'.payload = e.payload

/-! ### Submission (chapter 6) -/

/-- When WRDY is asserted (R111), and a data word that does not complete a message: ignored while WRDY is negated (R112), word 0
(R113), a WEND in the wrong place (R115), a word in DISCARDING, a payload word and the last one without WEND (R114). What the
length, the expected words and the words taken are in IDLE and DISCARDING, after a rejection and otherwise, is the model's choice:
they keep the values of the submission before (log entry 5). -/
def Obligations.DataWordOutcomes : Prop :=
  (∀ s : State, s.wrdy = true ↔ s.station.state ≠ .setup ∧
    (s.submission.asm ≠ .idle ∨ (1 ≤ s.ownClaimable ∧ s.submission.queue.length < 32))) ∧
  ∀ (w : Word) (wend : Bool) (s : State), s.station.mrst = false →
    (s.wrdy = false → exec (.dataWord w wend) s = .next (s.raise .portMisuse)) ∧
    (s.wrdy = true → s.submission.asm = .idle →
      (wend = true → exec (.dataWord w wend) s = .next (s.raise .submitError)) ∧
      (wend = false → w.toNat = 0 ∨ 120 < w.toNat → exec (.dataWord w wend) s =
        .next ((s.raise .submitError).withSubmission { s.submission with asm := .discarding })) ∧
      (wend = false → 1 ≤ w.toNat → w.toNat ≤ 120 → s.store.reserved = none → ∃ st : Store,
        s.store.reserve s.setup.ownShare = some st ∧ exec (.dataWord w wend) s =
          .next ((s.withStore st).withSubmission
            { s.submission with
              asm := .assembling, length := w.toNat, expected := (w.toNat + 1) / 2, taken := 0 }))) ∧
    (s.wrdy = true → s.submission.asm = .assembling → s.submission.taken + 1 < s.submission.expected →
      (wend = true → exec (.dataWord w wend) s =
        .next (((s.withStore { s.store with reserved := none }).raise .submitError).withSubmission
          { s.submission with asm := .idle, taken := s.submission.taken + 1 })) ∧
      (wend = false → exec (.dataWord w wend) s =
        .next ((s.withStore
            { s.store with
              reserved := s.store.reserved.map fun bytes => bytes ++ [w.extractLsb' 8 8, w.extractLsb' 0 8] }).withSubmission
          { s.submission with taken := s.submission.taken + 1 }))) ∧
    (s.wrdy = true → s.submission.asm = .assembling → s.submission.taken + 1 = s.submission.expected → wend = false →
      exec (.dataWord w wend) s =
        .next ((s.withStore
            { s.store with
              reserved := s.store.reserved.map fun bytes => bytes ++
                if s.submission.length % 2 = 1 then [w.extractLsb' 8 8]
                else [w.extractLsb' 8 8, w.extractLsb' 0 8] }).withSubmission
          { s.submission with asm := .awaitingEnd, taken := s.submission.taken + 1 })) ∧
    (s.wrdy = true → s.submission.asm = .awaitingEnd → exec (.dataWord w wend) s =
      .next (((s.withStore { s.store with reserved := none }).raise .submitError).withSubmission
        { s.submission with asm := if wend then .idle else .discarding })) ∧
    (s.wrdy = true → s.submission.asm = .discarding → exec (.dataWord w wend) s =
      .next (s.withSubmission { s.submission with asm := if wend then .idle else .discarding }))

/-- A whole submission of 1 to 120 bytes, written while WRDY is asserted, is held with its payload byte for byte as the
youngest entry of the own share under next-seq, pinned TX (and DUE with LOOPBACK), and joins the DATA duty queue; next-seq
rises by one. When the key is still held from 65536 numbers earlier, the message is lost, the number is not consumed and
SUBMIT_ERROR is raised (R113, R114, R116). -/
def Obligations.SubmissionIsStored : Prop :=
  ∀ (payload : List Byte) (pad : Byte) (s : State) (st : Store), 1 ≤ payload.length → payload.length ≤ 120 →
    s.station.mrst = false → s.wrdy = true → s.submission.asm = .idle → s.store.reserved = none →
    s.store.reserve s.setup.ownShare = some st →
    ∃ t : State,
      execAll ((withWend (BitVec.ofNat 16 payload.length :: wordsOf pad payload)).map
        fun x => .dataWord x.1 x.2) s = .next t ∧
      ((∀ x ∈ st.own ++ st.peer,
          x.key ≠ { origin := s.stn, epoch := s.submission.ownEpoch, seq := s.submission.nextSeq }) →
        t.store =
          { own := st.own ++
              [{ key := { origin := s.stn, epoch := s.submission.ownEpoch, seq := s.submission.nextSeq }
                 payload := payload
                 pins := { due := s.setup.loopback, handed := false, tx := true } }]
            peer := st.peer
            reserved := none } ∧
        t.submission.asm = .idle ∧ t.submission.nextSeq = s.submission.nextSeq + 1 ∧
        t.submission.queue =
          s.submission.queue ++ [{ seq := s.submission.nextSeq, count := 0, marker := .waiting }] ∧
        t.events = s.events) ∧
      ((∃ x ∈ st.own ++ st.peer,
          x.key = { origin := s.stn, epoch := s.submission.ownEpoch, seq := s.submission.nextSeq }) →
        t.store = { st with reserved := none } ∧ t.submission.asm = .idle ∧
        t.submission.nextSeq = s.submission.nextSeq ∧ t.submission.queue = s.submission.queue ∧
        t.events = (s.raise .submitError).events) ∧
      t.submission.ownEpoch = s.submission.ownEpoch ∧ t.submission.nextUntx = s.submission.nextUntx ∧
      t.contexts = s.contexts ∧ t.pool = s.pool ∧ t.duties = s.duties ∧ t.delivery = s.delivery ∧ t.sched = s.sched ∧
      t.trunk = s.trunk ∧ t.station = s.station ∧ t.control = s.control ∧ t.counters = s.counters ∧ t.out = s.out ∧
      t.pending = s.pending

/-! ### Control channel and Station Control's commands (chapters 9 and 10) -/

/-- SET, written to a ready channel: REFUSED_STATE outside SETUP, REFUSED_FIELD for an identifier that is none of 1 to 12,
REFUSED_VALUE for a value outside the range of Table 9.2, else DONE and the field takes the value; nothing else changes
(R164, R188). -/
def Obligations.SetWritesOneField : Prop :=
  ∀ (field value : Word) (s : State), HostReady s →
    (s.station.state ≠ .setup → exec (.set field value) s = .next (s.answered .refusedState [])) ∧
    (s.station.state = .setup → (field = 0 ∨ 12 < field.toNat) →
      exec (.set field value) s = .next (s.answered .refusedField [])) ∧
    (s.station.state = .setup → ∀ (id low high : Nat) (x : Setup),
      (id, low, high, x) ∈
        [(1, 8, 512, { s.setup with ownShare := value.toNat }),
          (2, 0, 255, { s.setup with reqBase := value.toNat }),
          (3, 0, 255, { s.setup with repairBase := value.toNat }),
          (4, 32, 4095, { s.setup with repairTimeout := value.toNat }),
          (5, 1, 7, { s.setup with attemptLimit := value.toNat }),
          (6, 256, 65535, { s.setup with beaconInterval := value.toNat }),
          (7, 256, 65535, { s.setup with listenPeriod := value.toNat }),
          (8, 0, 1, { s.setup with loopback := value == 1 }),
          (9, 0, 64, { s.setup with dqAeLevel := value.toNat }),
          (10, 0, 64, { s.setup with dqAfOffset := value.toNat }),
          (11, 0, 255, { s.setup with initialEpoch := value.extractLsb' 0 8 }),
          (12, 0, 15,
            { s.setup with
              classPriority :=
                { replay := value.getLsbD 0, gapreq := value.getLsbD 1, data := value.getLsbD 2,
                  beacon := value.getLsbD 3 } })] →
      field.toNat = id →
      exec (.set field value) s =
        if low ≤ value.toNat ∧ value.toNat ≤ high then
          .next ((s.withStation { s.station with setup := x }).answered .done [])
        else .next (s.answered .refusedValue []))

/-- JOIN (R165, R166, R27, R47, R151) and RECOVER (R172), written to a ready channel: accepted in their states, the station
goes to LISTENING with the listen timer started; refused in the others, nothing changes. -/
def Obligations.JoinAndRecoverListen : Prop :=
  ∀ s : State, HostReady s →
    (s.station.state = .setup → exec .join s =
      .next ((((((s.withStation
              { s.station with state := .listening, listenTimer := some s.setup.listenPeriod }).withTrunk
            { s.trunk with rx := RxPath.at (if s.trunk.burst then .skip else .waiting) }).withSubmission
          { s.submission with ownEpoch := s.setup.initialEpoch }).setCtx s.stn
        { s.ctx s.stn with epoch := s.setup.initialEpoch, nextDue := 0, horizon := 65535, lossFloor := 0 })).answered
          .done [])) ∧
    (s.station.state = .ready → ∃ t : State, exec .join s = .next (t.answered .done []) ∧
      t = (((s.withStation
              { s.station with state := .listening, listenTimer := some s.setup.listenPeriod }).withTrunk
            { s.trunk with rx := RxPath.at (if s.trunk.burst then .skip else .waiting) }).withContexts t.contexts) ∧
      ∀ o : Station, t.ctx o =
        if (s.ctx o).heardSinceReset then { s.ctx o with silenceTimer := some (4 * s.setup.beaconInterval) }
        else s.ctx o) ∧
    (s.station.state ≠ .setup → s.station.state ≠ .ready → exec .join s = .next (s.answered .refusedState [])) ∧
    (s.station.state = .muted → exec .recover s =
      .next ((s.withStation
        { s.station with
          state := .listening, muteReason := none, listenTimer := some s.setup.listenPeriod }).answered .done [])) ∧
    (s.station.state ≠ .muted → exec .recover s = .next (s.answered .refusedState []))

/-- LEAVE, written to a ready channel: the pools and the Scheduler are left as R71, R89 and R142 say; with a frame or jam in
flight the station is LEAVING with its receive path on, else READY with the path off and every silence timer stopped
(R168). -/
def Obligations.LeaveLeaves : Prop :=
  ∀ s : State, HostReady s →
    ((s.station.state = .listening ∨ s.station.state = .active ∨ s.station.state = .muted) →
      ∃ t : State, exec .leave s = .next (t.answered .done []) ∧ QuitActive s t ∧
        t.station =
          { s.station with
            state := if s.sched.state = .sending ∨ s.sched.state = .jamming then .leaving else .ready
            muteReason := none
            listenTimer := none } ∧
        t.trunk =
          (if s.sched.state = .sending ∨ s.sched.state = .jamming then s.trunk
            else { s.trunk with rx := RxPath.at .off }) ∧
        (∀ o : Station, (t.ctx o).place = (s.ctx o).place ∧ (t.ctx o).state = (s.ctx o).state ∧
          (t.ctx o).silent = (s.ctx o).silent ∧ (t.ctx o).heardSinceReset = (s.ctx o).heardSinceReset ∧
          (t.ctx o).restartPending = (s.ctx o).restartPending ∧
          (t.ctx o).silenceTimer =
            if s.sched.state = .sending ∨ s.sched.state = .jamming then (s.ctx o).silenceTimer else none) ∧
        t.events = s.events ∧ t.out = s.out ∧ t.pending = s.pending) ∧
    ((s.station.state = .setup ∨ s.station.state = .ready ∨ s.station.state = .leaving) →
      exec .leave s = .next (s.answered .refusedState []))

/-- The reads, written to a ready channel: STATUS, READ_CONTEXT, READ_COUNTERS and READ_EVENTS answer the words of Tables
11.6, 11.7, 10.5 and 11.5 and change nothing else (R178, R180, R181, R183, R185, R189). That STATUS reads the values of all
blocks at one moment, none straddling a happening, is the model's choice (log entry 21). -/
def Obligations.ReadsAnswerAndChangeNothing : Prop :=
  ∀ s : State, HostReady s →
    (ModeSound s → SetupSound s → StoreSound s → SubmissionSound s → DeliverySound s → WireSound s →
      exec .status s = .next (s.answered .done
        [ BitVec.ofNat 16 (
            (match s.station.state with
              | .setup => 0
              | .ready => 1
              | .listening => 2
              | .active => 3
              | .leaving => 4
              | .muted => 5) * 8192 +
            (match s.station.muteReason with
              | none => 0
              | some .abandon => 1
              | some .clash => 2) * 2048 + s.station.rate.toNat * 512 + s.stn.toNat),
          BitVec.ofNat 16 (s.setup.loopback.toNat * 32768 + s.setup.classPriority.beacon.toNat * 16384 +
            s.setup.classPriority.data.toNat * 8192 + s.setup.classPriority.gapreq.toNat * 4096 +
            s.setup.classPriority.replay.toNat * 2048 + s.setup.ownShare),
          BitVec.ofNat 16 (s.setup.reqBase * 256 + s.setup.repairBase),
          BitVec.ofNat 16 (s.setup.attemptLimit * 4096 + s.setup.repairTimeout),
          BitVec.ofNat 16 s.setup.beaconInterval,
          BitVec.ofNat 16 s.setup.listenPeriod,
          BitVec.ofNat 16 (s.setup.dqAeLevel * 256 + s.setup.dqAfOffset),
          BitVec.ofNat 16 (s.setup.initialEpoch.toNat * 256 + s.submission.ownEpoch.toNat),
          s.submission.nextSeq,
          s.submission.nextUntx,
          BitVec.ofNat 16 (s.submission.queue.length * 1024 + s.ownFree),
          BitVec.ofNat 16 (
            (match s.sched.state with
              | .idle => 0
              | .holdoff => 1
              | .sending => 2
              | .jamming => 3) * 16384 +
            (match s.sched.commitment.map (fun c => c.duty) with
              | none => 0
              | some (.replay _) => 1
              | some (.gapreq _) => 2
              | some .data => 3
              | some .beacon => 4) * 2048 + s.sched.beaconDuty.toNat * 1024 + s.ownClaimable),
          BitVec.ofNat 16 (s.sched.abandons * 1024 + s.peerFree),
          BitVec.ofNat 16 (s.dutiesIn .delay * 1024 + s.peerClaimable),
          BitVec.ofNat 16 (s.delivery.queue.length * 256 + s.dutiesIn .sending * 32 + s.dutiesIn .eligible) ])) ∧
    (∀ o : Station, exec (.readContext (o.setWidth 16)) s = .next (s.answered .done
      [ BitVec.ofNat 16 ((s.ctx o).trackerHeld.toNat * 256 + (s.ctx o).silenceTimer.isSome.toNat * 128 +
          (s.ctx o).silent.toNat * 64 + (s.ctx o).heardSinceReset.toNat * 32 + (s.ctx o).restartPending.toNat * 16 +
          (match (s.ctx o).state with
            | .unsynced => 0
            | .steady => 1
            | .gapped => 2
            | .own => 3)),
        BitVec.ofNat 16 ((s.ctx o).epoch.toNat * 256 + (s.ctx o).restartOldEpoch.toNat),
        (s.ctx o).nextDue,
        (s.ctx o).horizon,
        (s.ctx o).lossFloor,
        (s.ctx o).restartCount ])) ∧
    (∀ w : Word, 31 < w.toNat → exec (.readContext w) s = .next (s.answered .refusedValue [])) ∧
    exec .readCounters s = .next (s.answered .done
      [ s.counters.rxGood, s.counters.rxError, s.counters.rxStale, s.counters.rxNoroom, s.counters.collisions,
        s.counters.abandons, s.counters.replaysSent, s.counters.requestsSent, s.counters.dutyDrops,
        s.counters.lostSeqs ]) ∧
    exec .readEvents s = .next (s.answered .done
      [ BitVec.ofNat 16 s.events.flags.toNat, BitVec.ofNat 16 s.events.mask.toNat,
        BitVec.ofNat 16 s.events.priority.toNat ])

/-- When ALERT_HI and ALERT_LO are asserted: while some flag is set and not masked, of high or of low priority (R183). And
CLEAR_COUNTERS, ACK_EVENTS, SET_EVENT_MASK and SET_EVENT_PRIORITY, written to a ready channel, bit by bit in the positions of
Table 11.5; bits 15 to 11 of the mask are ignored (R182, R183, R185). -/
def Obligations.EventAndCounterCommands : Prop :=
  (∀ s : State,
    (s.alertHi = true ↔ ∃ i, i < 11 ∧ s.events.flags.getLsbD i = true ∧ s.events.mask.getLsbD i = false ∧
      s.events.priority.getLsbD i = true) ∧
    (s.alertLo = true ↔ ∃ i, i < 11 ∧ s.events.flags.getLsbD i = true ∧ s.events.mask.getLsbD i = false ∧
      s.events.priority.getLsbD i = false)) ∧
  ∀ (mask : Word) (s : State), HostReady s →
    exec .clearCounters s = .next ((s.withCounters
      { rxGood := 0, rxError := 0, rxStale := 0, rxNoroom := 0, collisions := 0, abandons := 0, replaysSent := 0,
        requestsSent := 0, dutyDrops := 0, lostSeqs := 0 }).answered .done []) ∧
    (∃ flags : BitVec 11, exec (.ackEvents mask) s =
        .next ((s.withEvents { s.events with flags := flags }).answered .done []) ∧
      ∀ i, i < 11 → flags.getLsbD i = (s.events.flags.getLsbD i && !mask.getLsbD i)) ∧
    (∃ bits : BitVec 11, exec (.setEventMask mask) s =
        .next ((s.withEvents { s.events with mask := bits }).answered .done []) ∧
      ∀ i, i < 11 → bits.getLsbD i = mask.getLsbD i) ∧
    (∃ bits : BitVec 11, exec (.setEventPriority mask) s =
        .next ((s.withEvents { s.events with priority := bits }).answered .done []) ∧
      ∀ i, i < 11 → bits.getLsbD i = mask.getLsbD i)

/-- The lines of the Delivery Queue: RVAL is asserted while it holds a record (R103), DQ_AE while it holds DQ_AE_LEVEL or fewer,
DQ_AF while it holds 128 − DQ_AF_OFFSET or more (R104). DISCARD_HEAD, written to a ready channel: EMPTY on an empty queue; else
the head leaves, partly read or not, HANDED is cleared for a MESSAGE, and the answer is the record's first word (R105, R187). -/
def Obligations.DiscardHeadRemovesHead : Prop :=
  (∀ s : State, (s.rval = true ↔ s.delivery.queue ≠ []) ∧
    (s.dqAe = true ↔ s.delivery.queue.length ≤ s.setup.dqAeLevel) ∧
    (s.dqAf = true ↔ 128 - s.setup.dqAfOffset ≤ s.delivery.queue.length)) ∧
  ∀ s : State, HostReady s →
    (s.delivery.queue = [] → exec .discardHead s = .next (s.answered .empty [])) ∧
    (∀ (k : Key) (rest : List Record), s.delivery.queue = .message k :: rest → exec .discardHead s =
      .next (((s.withDelivery { s.delivery with queue := rest, readPos := 0 }).clearHanded k).answered .done
        [BitVec.ofNat 16 (256 + k.origin.toNat)])) ∧
    (∀ (o : Station) (e : Epoch) (first : SeqNum) (count : Nat) (rest : List Record),
      s.delivery.queue = .lost o e first count :: rest → exec .discardHead s =
        .next ((s.withDelivery { s.delivery with queue := rest, readPos := 0 }).answered .done
          [BitVec.ofNat 16 (512 + o.toNat)])) ∧
    (∀ (o : Station) (old new : Epoch) (count : Word) (rest : List Record),
      s.delivery.queue = .restart o old new count :: rest → exec .discardHead s =
        .next ((s.withDelivery { s.delivery with queue := rest, readPos := 0 }).answered .done
          [BitVec.ofNat 16 (768 + o.toNat)]))

/-- The parser (R174, R175, R177), on any control word while MRST is negated. The last two clauses say that the word which
completes a well-formed command executes it, with the outcome of the command's own row. -/
def Obligations.ControlWordParser : Prop :=
  ∀ (w : Word) (s : State), s.station.mrst = false →
    (s.control.parser = .idle → s.control.response ≠ [] →
      exec (.controlWord w true) s = .next (s.raise .portMisuse) ∧
      exec (.controlWord w false) s =
        .next ((s.raise .portMisuse).withControl { s.control with parser := .ignoring })) ∧
    (HostReady s →
      w ∉ [0x0102, 0x0200, 0x0300, 0x0400, 0x1000, 0x1101, 0x1200, 0x1300, 0x1400, 0x1501, 0x1601, 0x1701, 0x2000] →
      exec (.controlWord w true) s = .next (s.answered .malformed []) ∧
      exec (.controlWord w false) s = .next (s.withControl { s.control with parser := .rejecting })) ∧
    (HostReady s → ∀ c : Command,
      (w, c) ∈ [(0x0102, .set), (0x1101, .readContext), (0x1501, .ackEvents), (0x1601, .setEventMask),
        (0x1701, .setEventPriority)] →
      exec (.controlWord w true) s = .next (s.answered .malformed []) ∧
      exec (.controlWord w false) s = .next (s.withControl { s.control with parser := .collecting c [] })) ∧
    (HostReady s → w ∈ [0x0200, 0x0300, 0x0400, 0x1000, 0x1200, 0x1300, 0x1400, 0x2000] →
      exec (.controlWord w false) s = .next (s.withControl { s.control with parser := .rejecting })) ∧
    (s.control.parser = .collecting .set [] →
      exec (.controlWord w true) s = .next (s.answered .malformed []) ∧
      exec (.controlWord w false) s = .next (s.withControl { s.control with parser := .collecting .set [w] })) ∧
    (((∃ first : Word, s.control.parser = .collecting .set [first]) ∨ ∃ c : Command,
        c ∈ [.readContext, .ackEvents, .setEventMask, .setEventPriority] ∧ s.control.parser = .collecting c []) →
      exec (.controlWord w false) s = .next (s.withControl { s.control with parser := .rejecting })) ∧
    (s.control.parser = .rejecting → exec (.controlWord w true) s = .next (s.answered .malformed []) ∧
      exec (.controlWord w false) s = .next s) ∧
    (s.control.parser = .ignoring →
      exec (.controlWord w true) s = .next (s.withControl { s.control with parser := .idle }) ∧
      exec (.controlWord w false) s = .next s) ∧
    (HostReady s →
      exec (.controlWord 0x0200 true) s = exec .join s ∧ exec (.controlWord 0x0300 true) s = exec .leave s ∧
      exec (.controlWord 0x0400 true) s = exec .recover s ∧ exec (.controlWord 0x1000 true) s = exec .status s ∧
      exec (.controlWord 0x1200 true) s = exec .readCounters s ∧
      exec (.controlWord 0x1300 true) s = exec .clearCounters s ∧
      exec (.controlWord 0x1400 true) s = exec .readEvents s ∧
      exec (.controlWord 0x2000 true) s = exec .discardHead s) ∧
    (HostReady s → ∀ v : Word,
      execAll [.controlWord 0x0102 false, .controlWord v false, .controlWord w true] s = exec (.set v w) s ∧
      execAll [.controlWord 0x1101 false, .controlWord w true] s = exec (.readContext w) s ∧
      execAll [.controlWord 0x1501 false, .controlWord w true] s = exec (.ackEvents w) s ∧
      execAll [.controlWord 0x1601 false, .controlWord w true] s = exec (.setEventMask w) s ∧
      execAll [.controlWord 0x1701 false, .controlWord w true] s = exec (.setEventPriority w) s)

/-- The response channel: the n-th take of a response returns its n-th word, RLAST on the last alone, and the last empties the
buffer; a take on an empty buffer returns 0 without RLAST and raises PORT_MISUSE. Nothing else changes (R176, R177). And until
then a command is ignored: PORT_MISUSE, and nothing else, once its last word has been dropped (R177). -/
def Obligations.TakesReadResponse : Prop :=
  ∀ s : State, s.station.mrst = false →
    (∀ c : Instr, isHostCommand c = true → s.control.parser = .idle → s.control.response ≠ [] →
      exec c s = .next (s.raise .portMisuse)) ∧
    (s.control.response = [] →
      exec .responseTake s = .next ((s.withOut { rd := 0, rlast := false }).raise .portMisuse)) ∧
    (s.control.response ≠ [] → s.control.readPos = 0 → ∀ (n : Nat) (w : Word), s.control.response[n]? = some w →
      execAll (List.replicate (n + 1) .responseTake) s =
        .next ((s.withOut { rd := w, rlast := n + 1 == s.control.response.length }).withControl
          (if n + 1 = s.control.response.length then { s.control with response := [], readPos := 0 }
            else { s.control with readPos := n + 1 })))

/-! ### Delivery (chapter 5) -/

/-- DELIVERY_TURN with room in the queue serves the first ready context after the last-served one, going upward mod 32, with
the one record it is ready for, and moves it past what the record reported (R91 to R96, R43); with no room, or none ready,
nothing happens. The first clauses say what a context is ready for (Table 5.1, R91, R92): the own context for a MESSAGE while its
horizon is at or after its next-due; a synchronised peer context for a RESTART while one is pending, else for a MESSAGE when
next-due is present with DUE, else for a LOST when next-due is lost-reportable; and which numbers those are: the ones of
[next-due, horizon] that are not deliverable and lie before the floor or are present without DUE. -/
def Obligations.DeliveryTurnServes : Prop :=
  (∀ (s : State) (o : Station),
    ((s.ctx o).state = .unsynced → s.ready o = .no) ∧
    ((s.ctx o).state = .own →
      s.ready o = if ((s.ctx o).horizon - (s.ctx o).nextDue).toNat ≤ 32767 then .message else .no) ∧
    ((s.ctx o).isSynced = true → (s.ctx o).restartPending = true → s.ready o = .restart) ∧
    ((s.ctx o).isSynced = true → (s.ctx o).restartPending = false →
      (∀ e : Entry, s.store.find { origin := o, epoch := (s.ctx o).epoch, seq := (s.ctx o).nextDue } = some e →
        e.pins.due = true → s.ready o = .message) ∧
      ((∀ e : Entry, s.store.find { origin := o, epoch := (s.ctx o).epoch, seq := (s.ctx o).nextDue } = some e →
          e.pins.due = false) →
        s.ready o = if s.lostReportable o (s.ctx o).nextDue = true then .lost else .no)) ∧
    ((s.ctx o).Bounded → ∀ n : SeqNum, s.lostReportable o n = true ↔
      (n - (s.ctx o).nextDue).toNat < ((s.ctx o).horizon + 1 - (s.ctx o).nextDue).toNat ∧
      ((s.store.find { origin := o, epoch := (s.ctx o).epoch, seq := n } = none ∧
          (n - (s.ctx o).nextDue).toNat < ((s.ctx o).lossFloor - (s.ctx o).nextDue).toNat) ∨
        ∃ e : Entry, s.store.find { origin := o, epoch := (s.ctx o).epoch, seq := n } = some e ∧ e.pins.due = false))) ∧
  ∀ s : State,
    (128 ≤ s.delivery.queue.length → exec .deliveryTurn s = .next s) ∧
    ((∀ o : Station, s.ready o = .no) → exec .deliveryTurn s = .next s) ∧
    (s.delivery.queue.length < 128 → ∀ o : Station, s.ready o ≠ .no →
      (∀ p : Station, (p - s.delivery.lastServed - 1).toNat < (o - s.delivery.lastServed - 1).toNat → s.ready p = .no) →
      ∃ (t : State) (r : Record), exec .deliveryTurn s = .next t ∧
        t.delivery = { s.delivery with queue := s.delivery.queue ++ [r], lastServed := o } ∧
        t.submission = s.submission ∧ t.trunk = s.trunk ∧ t.station = s.station ∧ t.control = s.control ∧
        t.out = s.out ∧ t.pending = s.pending ∧ t.duties = s.duties ∧
        (∀ p : Station, p ≠ o → (t.ctx p).place = (s.ctx p).place ∧ (t.ctx p).state = (s.ctx p).state) ∧
        (s.ready o = .message →
          r = .message { origin := o, epoch := (s.ctx o).epoch, seq := (s.ctx o).nextDue } ∧
          t.store = (s.store.hand { origin := o, epoch := (s.ctx o).epoch, seq := (s.ctx o).nextDue }).2 ∧
          (t.ctx o).nextDue = (s.ctx o).nextDue + 1 ∧ (t.ctx o).horizon = (s.ctx o).horizon ∧
          (t.ctx o).lossFloor = later ((s.ctx o).nextDue + 1) (s.ctx o).lossFloor ∧
          t.events = s.events ∧ t.counters = s.counters) ∧
        (s.ready o = .lost → ∃ n : Nat, 1 ≤ n ∧ n ≤ 32767 ∧
          (∀ i, i < n → s.lostReportable o ((s.ctx o).nextDue + BitVec.ofNat 16 i) = true) ∧
          (n = 32767 ∨ s.lostReportable o ((s.ctx o).nextDue + BitVec.ofNat 16 n) = false) ∧
          r = .lost o (s.ctx o).epoch (s.ctx o).nextDue n ∧ t.store = s.store ∧
          (t.ctx o).nextDue = (s.ctx o).nextDue + BitVec.ofNat 16 n ∧ (t.ctx o).horizon = (s.ctx o).horizon ∧
          (t.ctx o).lossFloor = later ((s.ctx o).nextDue + BitVec.ofNat 16 n) (s.ctx o).lossFloor ∧
          t.events = (s.raise .loss).events ∧
          t.counters =
            { s.counters with lostSeqs := BitVec.ofNat 16 (min (s.counters.lostSeqs.toNat + n) 65535) }) ∧
        (s.ready o = .restart →
          r = .restart o (s.ctx o).restartOldEpoch (s.ctx o).epoch (s.ctx o).restartCount ∧ t.store = s.store ∧
          t.ctx o = { s.ctx o with restartPending := false, restartOldEpoch := 0, restartCount := 0 } ∧
          t.pool = s.pool ∧ t.events = (s.raise .restart).events ∧ t.counters = s.counters))

/-- A record read from the delivery channel: the n-th take of the head record returns the n-th word of Table 5.4 in the layout
of Table 11.2, a MESSAGE's payload byte for byte, RLAST on the last word alone; with the last word the record leaves the queue,
HANDED being cleared for a MESSAGE (R100, R101, R187). -/
def Obligations.TakesReadRecord : Prop :=
  ∀ (s : State) (r : Record) (rest : List Record) (words : List Word), s.station.mrst = false →
    s.delivery.queue = r :: rest → s.delivery.readPos = 0 →
    ((∃ (k : Key) (e : Entry), r = .message k ∧ s.store.find k = some e ∧ 1 ≤ e.payload.length ∧
        e.payload.length ≤ 120 ∧
        words = [BitVec.ofNat 16 (256 + k.origin.toNat),
          BitVec.ofNat 16 (256 * k.epoch.toNat + e.payload.length), k.seq] ++ wordsOf 0 e.payload) ∨
      (∃ (o : Station) (e : Epoch) (first : SeqNum) (count : Nat), r = .lost o e first count ∧
        words = [BitVec.ofNat 16 (512 + o.toNat), BitVec.ofNat 16 e.toNat, first, BitVec.ofNat 16 count]) ∨
      (∃ (o : Station) (old new : Epoch) (count : Word), r = .restart o old new count ∧
        words = [BitVec.ofNat 16 (768 + o.toNat), BitVec.ofNat 16 (256 * old.toNat + new.toNat), count])) →
    ∀ (n : Nat) (w : Word), words[n]? = some w →
      execAll (List.replicate (n + 1) .deliveryTake) s =
        if n + 1 < words.length then
          .next ((s.withOut { rd := w, rlast := false }).withDelivery { s.delivery with readPos := n + 1 })
        else
          match r with
          | .message k => .next (((s.withOut { rd := w, rlast := true }).withDelivery
              { s.delivery with queue := rest, readPos := 0 }).clearHanded k)
          | _ => .next ((s.withOut { rd := w, rlast := true }).withDelivery
              { s.delivery with queue := rest, readPos := 0 })

/-- A take on the empty delivery queue: RVAL is low, the word is 0 without RLAST, PORT_MISUSE is raised, and the queue does not
change (R102). -/
def Obligations.TakeOnEmptyQueue : Prop :=
  ∀ s : State, s.station.mrst = false → s.delivery.queue = [] → s.rval = false ∧
    exec .deliveryTake s = .next ((s.withOut { rd := 0, rlast := false }).raise .portMisuse)

/-! ### The trunk (chapter 8) -/

/-- LINE_ACTIVITY clears the line-idle indication, begins a burst at a waiting receive path, and makes a Scheduler in HOLDOFF
defer; LINE_IDLE sets the indication, no burst being in progress then; SILENT_CELL_ENDS_SKIP takes an ignoring path to
WAITING (R130, R146, R151, Table 8.3). That LINE_IDLE also ends a burst that was ignored is the model's reading of R146 (log
entry 15). -/
def Obligations.LineMonitorFollowsLine : Prop :=
  ∀ s : State, s.station.mrst = false →
    (∃ t : State, exec .lineActivity s = .next t ∧
      t.trunk =
        { s.trunk with
          lineIdle := false, burst := true
          rx := if s.trunk.rx.path = .waiting then RxPath.at .hunt else s.trunk.rx } ∧
      t = (s.withTrunk t.trunk).withSched
        (if s.sched.state = .holdoff then { s.sched with state := .idle, commitment := none, holdoff := none }
          else s.sched)) ∧
    exec .lineIdle s = .next (s.withTrunk
      { s.trunk with
        lineIdle := true, burst := false
        rx := if s.trunk.rx.path = .skip then RxPath.at .waiting else s.trunk.rx }) ∧
    (s.trunk.rx.path = .skip → exec .silentCellEndsSkip s =
      .next (s.withTrunk { s.trunk with burst := false, rx := RxPath.at .waiting }))

/-- Line coding, frame and reception agree: the cells a station sends for a frame with field values in range (R186), driven as
Table 8.1 says and read back as levels, are those cells, and a receive path that takes the burst finds a good frame with every
field as it was sent (R145, R147, R148, R152, R154, R186). -/
def Obligations.FrameRoundTrip : Prop :=
  (∀ (level : Bool) (c : BurstCell), readCell level (BurstCell.drive level c) = some c) ∧
    (∀ level : Bool, readCell level (level, level) = none) ∧
    ∀ f : Frame, f.wf = true → decisionOn (lineCells f.bytes) = .good f

/-- A single bit of a frame read wrongly, anywhere from the kind byte to the last check bit, is a frame error, never another
good frame (R148, R154). -/
def Obligations.OneWrongBitIsFrameError : Prop :=
  ∀ (f : Frame) (pre post : List Bool) (b : Bool), f.wf = true → f.bytes.flatMap bitsOfByte = pre ++ b :: post →
    decisionOn ((([true, false, true, false, true, false, true, false] ++ bitsOfByte delimiter) ++
      (pre ++ (!b) :: post)).map BurstCell.data) = .error

/-- FRAME_ERROR: a burst that the receive path finds to be a frame error is counted and raised, restarts the listen timer in
LISTENING, and leaves nothing else; the path waits (R154, R166). Whatever a burst carries, a path that ignores it, is off, or
reads back its own frame decides nothing (R151, Table 8.3). -/
def Obligations.FrameErrorIsCounted : Prop :=
  ∀ (cells : List BurstCell) (s : State), s.station.mrst = false →
    ((s.trunk.rx.path = .waiting ∨ s.trunk.rx.path = .hunt ∨ s.trunk.rx.path = .assemble) →
      (s.trunk.rx.cells cells).decide = .error → exec (.frameError cells) s =
        .next ((((s.withTrunk { s.trunk with burst := false, rx := RxPath.at .waiting }).withCounters
            { s.counters with rxError := BitVec.ofNat 16 (min (s.counters.rxError.toNat + 1) 65535) }).raise
              .rxError).withStation
          { s.station with
            listenTimer :=
              if s.station.state = .listening then some s.setup.listenPeriod else s.station.listenTimer })) ∧
    ∀ c : Instr, burstOf c = some cells →
      (s.trunk.rx.path = .skip → exec c s =
        .next (s.withTrunk { s.trunk with burst := false, rx := RxPath.at .waiting })) ∧
      (s.trunk.rx.path = .off → exec c s = .next (s.withTrunk { s.trunk with burst := false, rx := RxPath.at .off })) ∧
      (s.trunk.rx.path = .own → exec c s = .next s)

/-- FRAGMENT: at the sixteenth consecutive violation cell the path drops whatever the burst carried, goes to SKIP, and ignores
the line until the next silent cell, so that further cells change nothing. No counter, event, context or other block is
touched (R153). That the row carries the burst's cells is the model's choice (log entry 16), and so is that it is taken in
WAITING too and leaves the line-idle indication, which LINE_ACTIVITY clears (log entry 17). -/
def Obligations.FragmentLeavesNoTrace : Prop :=
  ∀ (before further : List BurstCell) (s : State), s.station.mrst = false →
    (s.trunk.rx.path = .waiting ∨ s.trunk.rx.path = .hunt ∨ s.trunk.rx.path = .assemble) →
    (s.trunk.rx.cells before).violations < 16 → (s.trunk.rx.cells before).path ≠ .skip →
    exec (.fragment (before ++ List.replicate 16 .violation ++ further)) s =
        .next (s.withTrunk { s.trunk with burst := true, rx := RxPath.at .skip }) ∧
      exec .silentCellEndsSkip (s.withTrunk { s.trunk with burst := true, rx := RxPath.at .skip }) =
        .next (s.withTrunk { s.trunk with burst := false, rx := RxPath.at .waiting })

/-- CLASH: a good frame whose sender is the own number is counted nowhere and handed to no block; Station Control takes it by
its state (R155, R170, R171). That the row carries the cells of the burst is the model's choice (log entry 16), and so is
that it is taken in WAITING too and leaves the line-idle indication, which LINE_ACTIVITY clears (log entry 17). -/
def Obligations.ClashByStationState : Prop :=
  ∀ (f : Frame) (s : State), f.wf = true → f.sender = s.stn → s.takesBurst →
    (s.station.state = .listening → exec (.clash (lineCells f.bytes)) s =
      .next (((s.withTrunk { s.trunk with burst := false, rx := RxPath.at .waiting }).raise .clash).withStation
        { s.station with listenTimer := some s.setup.listenPeriod })) ∧
    (s.station.state = .active → ∃ t : State, exec (.clash (lineCells f.bytes)) s = .next t ∧ QuitActive s t ∧
      t.station = { s.station with state := .muted, muteReason := some .clash } ∧
      t.trunk = { s.trunk with burst := false, rx := RxPath.at .waiting } ∧
      t.events = ((s.raise .clash).raise .muted).events ∧ t.control = s.control ∧ t.out = s.out ∧
      (∀ o : Station, t.ctx o = { s.ctx o with trackerHeld := (t.ctx o).trackerHeld })) ∧
    (s.station.state = .leaving → exec (.clash (lineCells f.bytes)) s =
      .next ((s.withTrunk { s.trunk with burst := false, rx := RxPath.at .waiting }).raise .clash)) ∧
    (s.station.state = .muted → exec (.clash (lineCells f.bytes)) s =
      .next (s.withTrunk { s.trunk with burst := false, rx := RxPath.at .waiting }))

/-! ### Frames heard (chapters 2, 3 and 4) -/

/-- A DATA or REPLAY of a peer origin at the context of its origin: where the context stands afterwards in the origin's
numbers, in the cases of Table 2.4 (R28 to R34, R37, R38), what is counted, raised and held (R30, R32, R35), and at a restart
the release of the old epoch's DUE pins (R17) before the insert. The frame's sender is heard (R45), and every other context
stands where it stood. That a synchronisation or a restart stands too when the key is already present is the model's reading of
R29 and R37 (log entry 10). -/
def Obligations.PeerFrameIsClassified : Prop :=
  ∀ (c : Instr) (sender : Station) (k : Key) (payload : List Byte) (s : State),
    ((c = .rxData (lineCells (Frame.data k.origin k.epoch k.seq payload).bytes) ∧ sender = k.origin) ∨
      c = .rxReplay (lineCells (Frame.replay k.origin k.epoch k.seq sender payload).bytes)) →
    1 ≤ payload.length → payload.length ≤ 120 → k.origin ≠ s.stn → sender ≠ s.stn → s.takesBurst →
    ∃ t : State, exec c s = .next t ∧
      t.counters.rxGood = BitVec.ofNat 16 (min (s.counters.rxGood.toNat + 1) 65535) ∧
      (t.ctx sender).heardSinceReset = true ∧ (t.ctx sender).silent = false ∧
      (t.ctx sender).silenceTimer = some (4 * s.setup.beaconInterval) ∧
      (∀ o : Station, o ≠ k.origin → (t.ctx o).place = (s.ctx o).place) ∧
      t.station = s.station ∧ t.submission = s.submission ∧ t.delivery = s.delivery ∧ t.control = s.control ∧
      t.out = s.out ∧ t.pending = s.pending ∧
      t.store.own.map (fun e => (e.key, e.payload)) = s.store.own.map (fun e => (e.key, e.payload)) ∧
      ((s.ctx k.origin).state = .unsynced →
        (t.ctx k.origin).place = (k.epoch, k.seq, k.seq, k.seq) ∧
        ((∀ x ∈ s.store.own ++ s.store.peer, x.key ≠ k) → 0 < s.peerClaimable →
          t.store.find k = some
            { key := k, payload := payload, pins := { due := true, handed := false, tx := false } } ∧
          t.counters.rxNoroom = s.counters.rxNoroom ∧ t.events = s.events) ∧
        ((∀ x ∈ s.store.own ++ s.store.peer, x.key ≠ k) → s.peerClaimable = 0 →
          t.store.find k = none ∧ t.events = (s.raise .retentionFull).events ∧
          t.counters.rxNoroom = BitVec.ofNat 16 (min (s.counters.rxNoroom.toNat + 1) 65535))) ∧
      ((s.ctx k.origin).isSynced = true →
        (newer k.epoch (s.ctx k.origin).epoch = false → k.epoch ≠ (s.ctx k.origin).epoch →
          t.ctx k.origin = { (t.ctx k.origin) with
            state := (s.ctx k.origin).state, trackerHeld := (s.ctx k.origin).trackerHeld } ∧
          (t.ctx k.origin).place = (s.ctx k.origin).place ∧
          t.counters.rxStale = BitVec.ofNat 16 (min (s.counters.rxStale.toNat + 1) 65535) ∧
          t.store.peer.map (fun e => (e.key, e.payload)) = s.store.peer.map (fun e => (e.key, e.payload))) ∧
        (newer k.epoch (s.ctx k.origin).epoch = true →
          (t.ctx k.origin).restartPending = true ∧
          ((s.ctx k.origin).restartPending = false →
            (t.ctx k.origin).restartOldEpoch = (s.ctx k.origin).epoch ∧
            (t.ctx k.origin).restartCount = (s.ctx k.origin).horizon + 1 - (s.ctx k.origin).nextDue) ∧
          ((s.ctx k.origin).restartPending = true →
            (t.ctx k.origin).restartOldEpoch = (s.ctx k.origin).restartOldEpoch ∧
            (t.ctx k.origin).restartCount.toNat =
              min ((s.ctx k.origin).restartCount.toNat +
                ((s.ctx k.origin).horizon + 1 - (s.ctx k.origin).nextDue).toNat) 65535) ∧
          (∀ e ∈ t.store.own ++ t.store.peer, e.key.origin = k.origin → e.key.epoch = (s.ctx k.origin).epoch →
            e.pins.due = false) ∧
          ((∀ x ∈ s.store.own ++ s.store.peer, x.key ≠ k) →
            (0 < (s.store.restartRelease k.origin (s.ctx k.origin).epoch).peerClaimable s.setup.ownShare →
              t.store.find k = some
                { key := k, payload := payload, pins := { due := true, handed := false, tx := false } } ∧
              t.counters.rxNoroom = s.counters.rxNoroom ∧ t.events = s.events) ∧
            ((s.store.restartRelease k.origin (s.ctx k.origin).epoch).peerClaimable s.setup.ownShare = 0 →
              t.store.find k = none ∧ t.events = (s.raise .retentionFull).events ∧
              t.counters.rxNoroom = BitVec.ofNat 16 (min (s.counters.rxNoroom.toNat + 1) 65535))) ∧
          (t.ctx k.origin).place =
            if k.seq.toNat ≤ 32767 then (k.epoch, 0, k.seq, if k.seq.toNat < 63 then 0 else k.seq - 63)
            else (k.epoch, k.seq, k.seq, k.seq)) ∧
        (k.epoch = (s.ctx k.origin).epoch →
          ((32768 ≤ (k.seq - (s.ctx k.origin).nextDue).toNat ∨ (∃ x ∈ s.store.own ++ s.store.peer, x.key = k)) →
            (t.ctx k.origin).place = (s.ctx k.origin).place) ∧
          ((k.seq - (s.ctx k.origin).nextDue).toNat < 32768 → (∀ x ∈ s.store.own ++ s.store.peer, x.key ≠ k) →
            (t.ctx k.origin).place =
              if (k.seq - (s.ctx k.origin).nextDue).toNat ≤
                  ((s.ctx k.origin).base - (s.ctx k.origin).nextDue).toNat + 63 then
                ((s.ctx k.origin).epoch, (s.ctx k.origin).nextDue, later (s.ctx k.origin).horizon k.seq,
                  (s.ctx k.origin).lossFloor)
              else ((s.ctx k.origin).epoch, (s.ctx k.origin).nextDue, k.seq, k.seq - 63)) ∧
          ((∀ x ∈ s.store.own ++ s.store.peer, x.key ≠ k) → 0 < s.peerClaimable →
            t.store.find k = some
              { key := k, payload := payload,
                pins :=
                  { due := decide ((k.seq - (s.ctx k.origin).nextDue).toNat < 32768), handed := false,
                    tx := false } } ∧
            t.counters.rxNoroom = s.counters.rxNoroom ∧ t.events = s.events) ∧
          ((∀ x ∈ s.store.own ++ s.store.peer, x.key ≠ k) → s.peerClaimable = 0 →
            t.store.find k = none ∧
            t.counters.rxNoroom =
              (if (k.seq - (s.ctx k.origin).nextDue).toNat < 32768 then
                BitVec.ofNat 16 (min (s.counters.rxNoroom.toNat + 1) 65535)
              else s.counters.rxNoroom) ∧
            t.events =
              (if (k.seq - (s.ctx k.origin).nextDue).toNat < 32768 then (s.raise .retentionFull).events
              else s.events))))

/-- A heard DATA or REPLAY cancels the duty of its key unless it is SENDING, whatever the context makes of the frame, and no
other duty; the Scheduler's commitment in hold-off is withdrawn when it is the cancelled duty, or a request that parking or
freeing has taken back, and stands otherwise (R131); a REPLAY of an own-origin key does so too, and leaves the own share's messages and every context's place as they
stood (R49, R87, R88). -/
def Obligations.HeardFrameCancelsDuty : Prop :=
  ∀ (c : Instr) (sender : Station) (k : Key) (payload : List Byte) (s : State),
    ((c = .rxData (lineCells (Frame.data k.origin k.epoch k.seq payload).bytes) ∧ sender = k.origin) ∨
      c = .rxReplay (lineCells (Frame.replay k.origin k.epoch k.seq sender payload).bytes)) →
    1 ≤ payload.length → payload.length ≤ 120 → sender ≠ s.stn → s.takesBurst → TrackersSound s →
    ∃ t : State, exec c s = .next t ∧
      (∀ d : Fin 16, t.duty d =
        match s.duty d with
        | some x => if x.key = k ∧ x.state ≠ .sending then none else some x
        | none => none) ∧
      t.duties.eligible = s.duties.eligible.filter (fun d =>
        match s.duty d with
        | some x => !(decide (x.key = k) && x.state != .sending)
        | none => true) ∧
      ((∃ (d : Fin 16) (x : Duty), s.duty d = some x ∧ x.key = k ∧ x.state ≠ .sending) →
        ∀ e : Entry, t.store.find k = some e → e.pins.tx = false) ∧
      (s.sched.state ≠ .holdoff → t.sched = s.sched) ∧
      (∀ h : Commitment, s.sched.state = .holdoff → s.sched.commitment = some h →
        (∀ d : Fin 16, h.duty = .replay d →
          ((∃ x, s.duty d = some x ∧ x.key = k ∧ x.state ≠ .sending) → t.sched = s.sched.released) ∧
          ((∀ x, s.duty d = some x → x.key ≠ k ∨ x.state = .sending) → t.sched = s.sched)) ∧
        (∀ i : Fin 8, h.duty = .gapreq i → (s.tracker i).marker = .pending →
          ((t.tracker i).marker = .pending → t.sched = s.sched) ∧
          ((t.tracker i).marker ≠ .pending → t.sched = s.sched.released)) ∧
        ((h.duty = .data ∨ h.duty = .beacon) → t.sched = s.sched)) ∧
      (k.origin = s.stn →
        (∀ o : Station, (t.ctx o).place = (s.ctx o).place ∧ (t.ctx o).state = (s.ctx o).state) ∧
        t.store.own.map (fun e => (e.key, e.payload)) = s.store.own.map (fun e => (e.key, e.payload)) ∧
        t.store.peer.map (fun e => (e.key, e.payload)) = s.store.peer.map (fun e => (e.key, e.payload)))

/-- A BEACON of a peer at its sender's context (R40, R41, R37, R38): synchronisation, a raised horizon with the floor it takes
with it, a restart, or nothing. -/
def Obligations.BeaconIsTaken : Prop :=
  ∀ (o : Station) (epoch : Epoch) (nextSeq : SeqNum) (s : State), o ≠ s.stn → s.takesBurst →
    ∃ t : State, exec (.rxBeacon (lineCells (Frame.beacon o epoch nextSeq).bytes)) s = .next t ∧
      t.counters = { s.counters with rxGood := BitVec.ofNat 16 (min (s.counters.rxGood.toNat + 1) 65535) } ∧
      t.events = s.events ∧ t.submission = s.submission ∧ t.delivery = s.delivery ∧ t.station = s.station ∧
      t.control = s.control ∧ t.out = s.out ∧ t.pending = s.pending ∧ t.duties = s.duties ∧
      (t.ctx o).heardSinceReset = true ∧ (t.ctx o).silent = false ∧
      (t.ctx o).silenceTimer = some (4 * s.setup.beaconInterval) ∧
      (∀ p : Station, p ≠ o → (t.ctx p).place = (s.ctx p).place) ∧
      ((s.ctx o).state = .unsynced →
        (t.ctx o).state = .steady ∧ (t.ctx o).place = (epoch, nextSeq, nextSeq - 1, nextSeq) ∧ t.store = s.store) ∧
      ((s.ctx o).isSynced = true →
        (newer epoch (s.ctx o).epoch = false → epoch ≠ (s.ctx o).epoch →
          (t.ctx o).place = (s.ctx o).place ∧ t.store = s.store) ∧
        (epoch = (s.ctx o).epoch → t.store = s.store ∧ (t.ctx o).place =
          if ((nextSeq - 1) - (s.ctx o).nextDue).toNat ≤ 32767 ∧ after (nextSeq - 1) (s.ctx o).horizon = true then
            ((s.ctx o).epoch, (s.ctx o).nextDue, nextSeq - 1,
              if ((s.ctx o).base - (s.ctx o).nextDue).toNat + 64 ≤ ((nextSeq - 1) - (s.ctx o).nextDue).toNat then
                nextSeq - 64
              else (s.ctx o).lossFloor)
          else (s.ctx o).place) ∧
        (newer epoch (s.ctx o).epoch = true → (t.ctx o).restartPending = true ∧
          t.store = s.store.restartRelease o (s.ctx o).epoch ∧
          ((s.ctx o).restartPending = false →
            (t.ctx o).restartOldEpoch = (s.ctx o).epoch ∧
            (t.ctx o).restartCount = (s.ctx o).horizon + 1 - (s.ctx o).nextDue) ∧
          ((s.ctx o).restartPending = true →
            (t.ctx o).restartOldEpoch = (s.ctx o).restartOldEpoch ∧
            (t.ctx o).restartCount.toNat = min ((s.ctx o).restartCount.toNat +
              ((s.ctx o).horizon + 1 - (s.ctx o).nextDue).toNat) 65535) ∧
          (t.ctx o).place =
            if nextSeq.toNat ≤ 32768 then
              (epoch, 0, nextSeq - 1, if nextSeq.toNat < 64 then 0 else nextSeq - 64)
            else (epoch, nextSeq, nextSeq - 1, nextSeq)))

/-- A heard GAPREQ, and a heard REPLAY, at the trackers: suppression of a DELAY tracker whose run first the request covers, its
request and its commitment being withdrawn (R66, R131), a fresh timeout for a WAIT one (R67), a fresh timeout for a WAIT tracker
whose asked range holds the replayed number (R65); every other tracker is left as it is. The last two clauses say it of the
commands: RX_GAPREQ leaves the pool so, parked when the duties it makes take the last claimable peer cell (R68); RX_REPLAY, when
the table has no use for the frame, leaves it so, resumed when a cancelled duty frees a peer cell (R69), and whatever the table
makes of the frame, a tracker that waits afterwards waited before, with the timeout fresh when the reply was for it. That a
tracker claimed anew after a give-up is suppressed like any other is the model's choice (log entry 20). -/
def Obligations.HeardFramesAtTrackers : Prop :=
  (∀ (origin : Station) (epoch : Epoch) (first : SeqNum) (count : Nat) (s : State),
    (∀ i : Fin 8, (s.hearGapreq origin epoch first count).tracker i =
      if (s.tracker i).origin = origin ∧ (s.tracker i).epoch = epoch ∧
          ((s.tracker i).runFirst - first).toNat < count then
        if (s.tracker i).state = .delay ∧ (s.tracker i).marker ≠ .onWire then
          { s.tracker i with
            state := .wait
            timer := .repairTimeout s.setup.repairTimeout
            marker := .none
            attempts :=
              if s.setup.attemptLimit ≤ (s.tracker i).attempts then (s.tracker i).attempts
              else (s.tracker i).attempts + 1
            asked := some (first, count) }
        else if (s.tracker i).state = .wait then
          { s.tracker i with timer := .repairTimeout s.setup.repairTimeout, asked := some (first, count) }
        else s.tracker i
      else s.tracker i) ∧
    (s.hearGapreq origin epoch first count).pool.requests =
      s.pool.requests.filter (fun r => !(s.tracker r.tracker).suppressed origin epoch first count)) ∧
  (∀ (k : Key) (s : State),
    (∀ i : Fin 8, (s.hearReplay k).tracker i =
      if (s.tracker i).state = .wait ∧ (s.tracker i).origin = k.origin ∧ (s.tracker i).epoch = k.epoch ∧
          ((s.tracker i).asked.any fun r => decide ((k.seq - r.1).toNat < r.2)) = true
      then { s.tracker i with timer := .repairTimeout s.setup.repairTimeout }
      else s.tracker i) ∧
    (s.hearReplay k).pool.requests = s.pool.requests) ∧
  (∀ (requester origin : Station) (epoch : Epoch) (first : SeqNum) (count : Nat) (s : State), requester ≠ s.stn →
    1 ≤ count → count ≤ 8 → s.takesBurst →
    ∃ t : State, exec (.rxGapreq (lineCells (Frame.gapreq requester origin epoch first count).bytes)) s = .next t ∧
      ((s.peerClaimable = 0 ∨ t.peerClaimable ≠ 0) → t.pool = (s.hearGapreq origin epoch first count).pool) ∧
      (s.peerClaimable ≠ 0 → t.peerClaimable = 0 →
        (∀ i : Fin 8, t.tracker i = ((s.hearGapreq origin epoch first count).tracker i).afterExhausted) ∧
        t.pool.requests = (s.hearGapreq origin epoch first count).pool.requests.filter (fun r =>
          (t.tracker r.tracker).state != .parked ||
            ((s.hearGapreq origin epoch first count).tracker r.tracker).state == .parked ||
            ((s.hearGapreq origin epoch first count).tracker r.tracker).marker != .pending)) ∧
      (s.sched.state ≠ .holdoff → t.sched = s.sched) ∧
      (∀ h : Commitment, s.sched.state = .holdoff → s.sched.commitment = some h →
        (∀ i : Fin 8, h.duty = .gapreq i → (s.tracker i).marker = .pending →
          ((t.tracker i).marker = .pending → t.sched = s.sched) ∧
          ((t.tracker i).marker ≠ .pending → t.sched = s.sched.released)) ∧
        ((∀ i : Fin 8, h.duty ≠ .gapreq i) → t.sched = s.sched))) ∧
  (∀ (k : Key) (replayer : Station) (payload : List Byte) (s : State), 1 ≤ payload.length → payload.length ≤ 120 →
    replayer ≠ s.stn → s.takesBurst →
    ∃ t : State, exec (.rxReplay (lineCells (Frame.replay k.origin k.epoch k.seq replayer payload).bytes)) s = .next t ∧
      ((k.origin = s.stn ∨ ((s.ctx k.origin).isSynced = true ∧
          ((k.epoch = (s.ctx k.origin).epoch ∧ ∃ x ∈ s.store.own ++ s.store.peer, x.key = k) ∨
            (k.epoch ≠ (s.ctx k.origin).epoch ∧ newer k.epoch (s.ctx k.origin).epoch = false)))) →
        ((s.peerClaimable ≠ 0 ∨ t.peerClaimable = 0) → t.pool = (s.hearReplay k).pool) ∧
        (s.peerClaimable = 0 → t.peerClaimable ≠ 0 →
          (∀ i : Fin 8, t.tracker i = ((s.hearReplay k).tracker i).afterClaimable
            (s.setup.reqBase + (s.stn - (s.tracker i).origin).toNat)) ∧
          t.pool.requests = s.pool.requests)) ∧
      ∀ i : Fin 8, (t.tracker i).state = .wait → (s.tracker i).state = .wait ∧
        (t.tracker i).origin = (s.tracker i).origin ∧ (t.tracker i).epoch = (s.tracker i).epoch ∧
        (t.tracker i).asked = (s.tracker i).asked ∧
        ((t.tracker i).timer = (s.tracker i).timer ∨ (t.tracker i).timer = .repairTimeout s.setup.repairTimeout) ∧
        ((s.tracker i).origin = k.origin → (s.tracker i).epoch = k.epoch →
          ((s.tracker i).asked.any fun r => decide ((k.seq - r.1).toNat < r.2)) = true →
          (t.tracker i).timer = .repairTimeout s.setup.repairTimeout))

/-- A change notice of a synchronised origin at the pool. A tracker that serves the origin takes the run as context and store give
it: a new run first sets the attempts to 0 and, in WAIT, restarts the timeout inside the asked range or begins a fresh request
delay outside it; a new count alone changes nothing else; and with an empty run the tracker is freed (R51, R52). An origin that
no tracker serves claims the lowest FREE tracker when it is GAPPED in ACTIVE (R54). A freed tracker leaves the request list, a
commitment to its request is withdrawn (R131), and it is offered in ACTIVE to the origins that wait, its own freed origin among
them, from the one after its last origin upward mod 32 (R53, R55). That the origin, epoch, run, attempts and asked range of a
tracker that stays FREE, which have lost their meaning (R53), keep their last values is the model's choice (log entry 5). -/
def Obligations.ChangeNoticeAtPool : Prop :=
  (∀ (o : Station) (s : State), TrackersSound s → (s.ctx o).isSynced = true → (s.ctx o).Bounded →
    (∀ i : Fin 8, (s.tracker i).state ≠ .free → (s.tracker i).origin = o →
      (∀ (first : SeqNum) (count : Nat), RunIs s o first count → s.changeNotice o = s.setTracker i
        (if first = (s.tracker i).runFirst then { s.tracker i with runCount := count }
        else if (s.tracker i).state = .wait then
          if ((s.tracker i).asked.any fun r => decide ((first - r.1).toNat < r.2)) = true then
            { s.tracker i with
              runFirst := first, runCount := count, attempts := 0, timer := .repairTimeout s.setup.repairTimeout }
          else
            { s.tracker i with
              runFirst := first, runCount := count, attempts := 0, state := .delay
              timer := .requestDelay (s.setup.reqBase + (s.stn - o).toNat) }
        else { s.tracker i with runFirst := first, runCount := count, attempts := 0 })) ∧
      ((∀ n : SeqNum, ¬ s.missing o n) → s.changeNotice o = s.freeTracker i)) ∧
    ((∀ i : Fin 8, (s.tracker i).state = .free ∨ (s.tracker i).origin ≠ o) →
      (∀ (i : Fin 8) (first : SeqNum) (count : Nat), s.station.state = .active → (s.ctx o).state = .gapped →
        (s.tracker i).state = .free → (∀ j : Fin 8, j < i → (s.tracker j).state ≠ .free) → RunIs s o first count →
        s.changeNotice o =
          (s.setTracker i (s.claimedTracker o first count)).setCtx o { s.ctx o with trackerHeld := true }) ∧
      ((s.station.state ≠ .active ∨ (s.ctx o).state ≠ .gapped ∨ ∀ i : Fin 8, (s.tracker i).state ≠ .free) →
        s.changeNotice o = s))) ∧
  ∀ (i : Fin 8) (s : State), TrackersSound s → ContextsSound s → (s.tracker i).state ≠ .free →
    (∀ j : Fin 8, j ≠ i → (s.freeTracker i).tracker j = s.tracker j) ∧
    (s.freeTracker i).pool.requests = s.pool.requests.filter (fun r => r.tracker != i) ∧
    (s.freeTracker i).sched =
      (if s.sched.state = .holdoff ∧ s.sched.commitment.map (fun c => c.duty) = some (.gapreq i) then s.sched.released
      else s.sched) ∧
    (∀ p : Station, (s.freeTracker i).ctx p = { s.ctx p with trackerHeld := ((s.freeTracker i).ctx p).trackerHeld }) ∧
    (s.freeTracker i).store = s.store ∧ (s.freeTracker i).duties = s.duties ∧ (s.freeTracker i).delivery = s.delivery ∧
    (s.freeTracker i).submission = s.submission ∧ (s.freeTracker i).trunk = s.trunk ∧
    (s.freeTracker i).station = s.station ∧ (s.freeTracker i).events = s.events ∧
    (s.freeTracker i).counters = s.counters ∧
    ((s.station.state ≠ .active ∨ ∀ p : Station, (s.ctx p).state = .gapped →
        (s.ctx p).trackerHeld = true ∧ p ≠ (s.tracker i).origin) →
      (s.freeTracker i).tracker i =
        { s.tracker i with state := .free, timer := .stopped, marker := .none, lastOrigin := (s.tracker i).origin } ∧
      ((s.freeTracker i).ctx (s.tracker i).origin).trackerHeld = false) ∧
    (s.station.state = .active → ∀ (o : Station) (first : SeqNum) (count : Nat), (s.ctx o).state = .gapped →
      ((s.ctx o).trackerHeld = false ∨ o = (s.tracker i).origin) →
      (∀ p : Station, (p - (s.tracker i).origin - 1).toNat < (o - (s.tracker i).origin - 1).toNat →
        (s.ctx p).state = .gapped → (s.ctx p).trackerHeld = true ∧ p ≠ (s.tracker i).origin) →
      RunIs s o first count →
      (s.freeTracker i).tracker i = s.claimedTracker o first count ∧ ((s.freeTracker i).ctx o).trackerHeld = true ∧
        (o ≠ (s.tracker i).origin → ((s.freeTracker i).ctx (s.tracker i).origin).trackerHeld = false))

/-- A GAPREQ of another station, heard in ACTIVE, makes a duty for each asked key that is held without TX while a duty is free,
with the delay of R79, and counts the others in DUTY_DROPS; duties in use stand; in the other states with the receiver on it
makes none (R75 to R79). -/
def Obligations.GapreqMakesDuties : Prop :=
  ∀ (requester origin : Station) (epoch : Epoch) (first : SeqNum) (count : Nat) (s : State), requester ≠ s.stn →
    1 ≤ count → count ≤ 8 → s.takesBurst →
    ∃ t : State, exec (.rxGapreq (lineCells (Frame.gapreq requester origin epoch first count).bytes)) s = .next t ∧
      t.counters.rxGood = BitVec.ofNat 16 (min (s.counters.rxGood.toNat + 1) 65535) ∧
      (t.ctx requester).heardSinceReset = true ∧
      (∀ (d : Fin 16) (x : Duty), s.duty d = some x → t.duty d = some x) ∧
      (s.station.state ≠ .active → t.duties = s.duties ∧ t.store = s.store ∧ t.counters.dutyDrops = s.counters.dutyDrops) ∧
      (s.station.state = .active →
        (∀ (d : Fin 16) (x : Duty), s.duty d = none → t.duty d = some x →
          (∃ i : Nat, i < count ∧ x.key = { origin := origin, epoch := epoch, seq := first + BitVec.ofNat 16 i }) ∧
          s.store.heldWithoutTx x.key = true ∧ t.store.heldWithTx x.key ∧ x.count = 0 ∧
          (if origin = s.stn ∨ s.setup.repairBase + (s.stn - requester).toNat = 0 then
            x.state = .eligible ∧ x.timer = none ∧ d ∈ t.duties.eligible
          else x.state = .delay ∧ x.timer = some (s.setup.repairBase + (s.stn - requester).toNat))) ∧
        (∀ i : Nat, i < count →
          s.store.heldWithoutTx { origin := origin, epoch := epoch, seq := first + BitVec.ofNat 16 i } = true →
          (∃ (d : Fin 16) (x : Duty), s.duty d = none ∧ t.duty d = some x ∧
            x.key = { origin := origin, epoch := epoch, seq := first + BitVec.ofNat 16 i }) ∨
          ∀ d : Fin 16, (t.duty d).isSome = true) ∧
        t.counters.dutyDrops.toNat = min (s.counters.dutyDrops.toNat + (List.range count).countP (fun i =>
          s.store.heldWithoutTx { origin := origin, epoch := epoch, seq := first + BitVec.ofNat 16 i } &&
            !decide (∃ d : Fin 16, s.duty d = none ∧ (t.duty d).map (fun x => x.key) =
              some { origin := origin, epoch := epoch, seq := first + BitVec.ofNat 16 i }))) 65535)

/-! ### Timers of trackers, duties and contexts (chapters 2, 3 and 4) -/

/-- REQUEST_DELAY_RUNS_OUT makes the request PENDING at the youngest end of the list (R57, R58). REPAIR_TIMEOUT_RUNS_OUT below
ATTEMPT_LIMIT starts a fresh request delay (R63); at it, the run is given up: the context's floor takes the number past the
run, within the bounds of R42, and the tracker is freed, or serves afresh with no attempts (R64, R42). -/
def Obligations.TrackerTimersRunOut : Prop :=
  ∀ (i : Fin 8) (n : Nat) (s : State),
    ((s.tracker i).timer = .requestDelay n → exec (.requestDelayRunsOut i) s =
      .next ((s.setTracker i { s.tracker i with timer := .stopped, marker := .pending }).setRequests
        (s.pool.requests ++ [{ tracker := i, count := 0 }]))) ∧
    ((s.tracker i).timer = .repairTimeout n → (s.tracker i).attempts < s.setup.attemptLimit →
      exec (.repairTimeoutRunsOut i) s = .next (s.setTracker i
        { s.tracker i with
          state := .delay
          timer := .requestDelay (s.setup.reqBase + (s.stn - (s.tracker i).origin).toNat) })) ∧
    ((s.tracker i).timer = .repairTimeout n → s.setup.attemptLimit ≤ (s.tracker i).attempts →
      ∃ t : State, exec (.repairTimeoutRunsOut i) s = .next t ∧
        ((t.tracker i).state = .free ∨ (t.tracker i).attempts = 0) ∧ t.store = s.store ∧ t.delivery = s.delivery ∧
        t.duties = s.duties ∧ t.submission = s.submission ∧ t.station = s.station ∧ t.events = s.events ∧
        t.counters = s.counters ∧ t.trunk = s.trunk ∧ t.control = s.control ∧
        (∀ o : Station, o ≠ (s.tracker i).origin → (t.ctx o).place = (s.ctx o).place) ∧
        (t.ctx (s.tracker i).origin).nextDue = (s.ctx (s.tracker i).origin).nextDue ∧
        (t.ctx (s.tracker i).origin).horizon = (s.ctx (s.tracker i).origin).horizon ∧
        ((s.ctx (s.tracker i).origin).isSynced = true → (s.ctx (s.tracker i).origin).epoch = (s.tracker i).epoch →
          (s.ctx (s.tracker i).origin).Bounded →
          ∀ past : Nat, past ≤ 32768 →
            (s.tracker i).runFirst + BitVec.ofNat 16 (s.tracker i).runCount =
              (s.ctx (s.tracker i).origin).nextDue + BitVec.ofNat 16 past →
            ((t.ctx (s.tracker i).origin).lossFloor - (s.ctx (s.tracker i).origin).nextDue).toNat =
              if after ((s.ctx (s.tracker i).origin).nextDue + BitVec.ofNat 16 past)
                  (s.ctx (s.tracker i).origin).lossFloor = true then
                max ((s.ctx (s.tracker i).origin).lossFloor - (s.ctx (s.tracker i).origin).nextDue).toNat
                  (min past (min
                    ((s.ctx (s.tracker i).origin).horizon + 1 - (s.ctx (s.tracker i).origin).nextDue).toNat 32767))
              else ((s.ctx (s.tracker i).origin).lossFloor - (s.ctx (s.tracker i).origin).nextDue).toNat))

/-- REPLAY_DELAY_RUNS_OUT: the duties whose delay runs become ELIGIBLE and join the youngest end of the eligible order, in
ascending serial order reckoned from the first of them; other duties stand (R80). For duties of several requests that order is the
model's choice (log entry 12).
BEACON_TIMER_RUNS_OUT makes a BEACON duty with count 0 unless one is pending, and the timer is stopped (R139).
SILENCE_TIMER_RUNS_OUT sets the context's silent flag, stops its timer, raises SILENT, and changes no other context field
(R46). JAM_END takes the Scheduler to IDLE, and a LEAVING station to READY with its receive path off and its silence timers
stopped (R138, R169, R168). -/
def Obligations.TimersAndJamEnd : Prop :=
  (∀ (ds : List (Fin 16)) (s : State), ∃ (t : State) (joined : List (Fin 16)),
    exec (.replayDelayRunsOut ds) s = .next t ∧ t = s.withDuties t.duties ∧
    (∀ d : Fin 16, t.duty d = (s.duty d).map fun x =>
      if d ∈ ds ∧ x.state = .delay ∧ x.timer.isSome = true then { x with state := .eligible, timer := none } else x) ∧
    t.duties.eligible = s.duties.eligible ++ joined ∧ joined.Nodup ∧
    (∀ d : Fin 16, d ∈ joined ↔ d ∈ ds ∧ ∃ x, s.duty d = some x ∧ x.state = .delay ∧ x.timer.isSome = true) ∧
    ∀ (f : Fin 16) (y : Duty), f ∈ joined → s.duty f = some y →
      (∀ d ∈ joined, ∀ x, s.duty d = some x → (x.key.seq - y.key.seq).toNat ≤ 32767) →
      joined.Pairwise fun a b => ∀ x z, s.duty a = some x → s.duty b = some z →
        (x.key.seq - y.key.seq).toNat ≤ (z.key.seq - y.key.seq).toNat) ∧
  ∀ s : State,
    (s.sched.beaconTimer.isSome = true → exec .beaconTimerRunsOut s = .next (s.withSched
      (if s.sched.beaconDuty then { s.sched with beaconTimer := none }
        else { s.sched with beaconTimer := none, beaconDuty := true, beaconCount := 0 }))) ∧
    (∀ o : Station, (s.ctx o).silenceTimer.isSome = true → exec (.silenceTimerRunsOut o) s =
      .next ((s.setCtx o { s.ctx o with silent := true, silenceTimer := none }).raise .silent)) ∧
    (s.sched.state = .jamming → s.station.state ≠ .leaving → exec .jamEnd s =
      .next (s.withSched { s.sched with state := .idle })) ∧
    (s.sched.state = .jamming → s.station.state = .leaving → exec .jamEnd s =
      .next ((((s.withSched { s.sched with state := .idle }).withStation
          { s.station with state := .ready, muteReason := none, listenTimer := none }).withTrunk
        { s.trunk with rx := RxPath.at .off }).withContexts (s.contexts.map fun c => { c with silenceTimer := none })))

/-- LISTEN_TIMER_RUNS_OUT: the station goes from LISTENING to ACTIVE, ACTIVE_REACHED is raised, a BEACON duty is made, the
beacon timer starts and the consecutive-abandon count is 0 (R167, R141); and the trackers, FREE before, are offered in number
order, tracker 0 to the first GAPPED origin after its last origin: an origin that waits is served, with its run as context and
store give it, unless no tracker is left FREE (R51, R54, R55, R56). -/
def Obligations.ListenTimerEntersActive : Prop :=
  ∀ s : State, s.station.state = .listening → s.station.listenTimer.isSome = true →
    ∃ t : State, exec .listenTimerRunsOut s = .next t ∧
      t.station = { s.station with state := .active, listenTimer := none } ∧
      t.sched =
        { s.sched with
          beaconTimer := some s.setup.beaconInterval, beaconDuty := true, beaconCount := 0, abandons := 0 } ∧
      t.events = (s.raise .activeReached).events ∧ t.store = s.store ∧ t.duties = s.duties ∧
      t.submission = s.submission ∧ t.delivery = s.delivery ∧ t.trunk = s.trunk ∧ t.counters = s.counters ∧
      t.control = s.control ∧ t.out = s.out ∧ t.pending = s.pending ∧
      (∀ o : Station, t.ctx o = { s.ctx o with trackerHeld := (t.ctx o).trackerHeld }) ∧
      (TrackersSound s → ContextsSound s → GapsDecided s →
        ∀ o : Station, (s.ctx o).state = .gapped →
          ((∃ (i : Fin 8) (first : SeqNum) (count : Nat), RunIs s o first count ∧
              t.tracker i = s.claimedTracker o first count) ∨
            ∀ i : Fin 8, (t.tracker i).state ≠ .free) ∧
          ((∀ p : Station, (p - (s.tracker 0).lastOrigin - 1).toNat < (o - (s.tracker 0).lastOrigin - 1).toNat →
              (s.ctx p).state ≠ .gapped) →
            (t.tracker 0).state ≠ .free ∧ (t.tracker 0).origin = o))

/-! ### The Transmit Scheduler (chapter 7) -/

/-- SELECTION_COMMIT: at a selection point the highest-ranked candidate is committed, flagged classes first and in class order
within each group, with the hold-off of its class, the station number and its collision count; a hold-off of 0 cells runs out
at once. Without a selection point or a candidate nothing happens (R125 to R128). -/
def Obligations.SelectionCommitsHighestRanked : Prop :=
  ∀ s : State,
    (∀ c : Commitment,
      (s.candidate .replay = some c ↔ ∃ (d : Fin 16) (rest : List (Fin 16)) (x : Duty), s.duties.eligible = d :: rest ∧
        s.duty d = some x ∧ x.state = .eligible ∧ c = { duty := .replay d, count := x.count }) ∧
      (s.candidate .gapreq = some c ↔ ∃ (r : Request) (rest : List Request), s.pool.requests = r :: rest ∧
        (s.tracker r.tracker).marker = .pending ∧ c = { duty := .gapreq r.tracker, count := r.count }) ∧
      (s.candidate .data = some c ↔ ∃ (h : DataDuty) (rest : List DataDuty), s.submission.queue = h :: rest ∧
        h.marker = .waiting ∧ c = { duty := .data, count := h.count }) ∧
      (s.candidate .beacon = some c ↔ s.sched.beaconDuty = true ∧
        c = { duty := .beacon, count := s.sched.beaconCount })) ∧
    ((s.trunk.lineIdle = false ∨ s.station.state ≠ .active ∨ s.sched.state ≠ .idle ∨ s.sched.commitment ≠ none ∨
        ∀ cl : FrameClass, s.candidate cl = none) → exec .selectionCommit s = .next s) ∧
    (s.trunk.lineIdle = true → s.station.state = .active → s.sched.state = .idle → s.sched.commitment = none →
      ∀ (cl : FrameClass) (c : Commitment), s.candidate cl = some c →
        (∀ other : FrameClass,
          ((s.setup.classPriority.has other = true ∧ s.setup.classPriority.has cl = false) ∨
            (s.setup.classPriority.has other = s.setup.classPriority.has cl ∧ other.idx < cl.idx)) →
          s.candidate other = none) →
        (32 * cl.idx + (s.stn.toNat + 5 * c.count) % 32 ≠ 0 → exec .selectionCommit s =
          .next (s.withSched
            { s.sched with
              state := .holdoff
              commitment := some c
              holdoff := some (32 * cl.idx + (s.stn.toNat + 5 * c.count) % 32) })) ∧
        (32 * cl.idx + (s.stn.toNat + 5 * c.count) % 32 = 0 → exec .selectionCommit s =
          exec .holdoffRunsOut (s.withSched
            { s.sched with state := .holdoff, commitment := some c, holdoff := some 0 })))

/-- HOLDOFF_RUNS_OUT in ACTIVE: the take of the committed duty, the frame with the content of Table 7.6 as it stands, sent
and read back, and the beacon timer restarted; or, when the duty is no longer there to take, WITHDRAWN and IDLE (R59, R82,
R119, R132, R133, R139, R149). -/
def Obligations.HoldoffStartsFrame : Prop :=
  ∀ (c : Commitment) (cells : Nat) (s : State), s.sched.state = .holdoff → s.sched.holdoff = some cells →
    s.sched.commitment = some c → s.station.state = .active →
    (∀ (d : Fin 16) (x : Duty) (e : Entry), c.duty = .replay d → s.duty d = some x → x.state = .eligible →
      s.store.find x.key = some e → exec .holdoffRunsOut s =
        .next (((s.setDuty d (some { x with state := .sending })).withTrunk
            { lineIdle := false, burst := true, rx := RxPath.at .own
              tx := some (Frame.replay x.key.origin x.key.epoch x.key.seq s.stn e.payload).bytes }).withSched
          { s.sched with state := .sending, holdoff := none, beaconTimer := some s.setup.beaconInterval })) ∧
    (∀ i : Fin 8, c.duty = .gapreq i → (s.tracker i).marker = .pending → exec .holdoffRunsOut s =
      .next (((s.setTracker i
          { s.tracker i with
            marker := .onWire, asked := some ((s.tracker i).runFirst, (s.tracker i).runCount) }).withTrunk
        { lineIdle := false, burst := true, rx := RxPath.at .own
          tx := some (Frame.gapreq s.stn (s.tracker i).origin (s.tracker i).epoch (s.tracker i).runFirst
            (s.tracker i).runCount).bytes }).withSched
        { s.sched with state := .sending, holdoff := none, beaconTimer := some s.setup.beaconInterval })) ∧
    (∀ (h : DataDuty) (rest : List DataDuty) (e : Entry), c.duty = .data → s.submission.queue = h :: rest →
      h.marker = .waiting →
      s.store.find { origin := s.stn, epoch := s.submission.ownEpoch, seq := h.seq } = some e →
      exec .holdoffRunsOut s =
        .next (((s.withSubmission { s.submission with queue := { h with marker := .sending } :: rest }).withTrunk
          { lineIdle := false, burst := true, rx := RxPath.at .own
            tx := some (Frame.data s.stn s.submission.ownEpoch h.seq e.payload).bytes }).withSched
          { s.sched with state := .sending, holdoff := none, beaconTimer := some s.setup.beaconInterval })) ∧
    (c.duty = .beacon → s.sched.beaconDuty = true → exec .holdoffRunsOut s =
      .next ((s.withTrunk
          { lineIdle := false, burst := true, rx := RxPath.at .own
            tx := some (Frame.beacon s.stn s.submission.ownEpoch s.submission.nextUntx).bytes }).withSched
        { s.sched with state := .sending, holdoff := none, beaconTimer := some s.setup.beaconInterval })) ∧
    (((∃ d : Fin 16, c.duty = .replay d ∧ ∀ x, s.duty d = some x → x.state ≠ .eligible) ∨
        ∃ i : Fin 8, c.duty = .gapreq i ∧ (s.tracker i).marker ≠ .pending) →
      exec .holdoffRunsOut s =
        .next (s.withSched { s.sched with state := .idle, commitment := none, holdoff := none }))

/-- FRAME_END: every cell of the frame in transmission has been read back as it was sent, the last check cell included (R149).
That the command changes nothing when it carries fewer cells is the model's choice (log entries 2 and 16). The Scheduler is IDLE with no abandon in a row, a LEAVING station goes to READY, and the
owner is told: the duty leaves with its TX pin, the request leaves its list with one attempt more, the DATA head leaves and the
next untransmitted value moves on, the BEACON duty is absent; an owner that has freed the duty changes nothing, while
REPLAYS_SENT and REQUESTS_SENT are counted all the same (R60, R62, R84, R86, R120, R134, R48, R169). -/
def Obligations.FrameEndTellsSent : Prop :=
  ∀ (c : Commitment) (bytes : List Byte) (s : State), s.sched.state = .sending → s.sched.commitment = some c →
    s.trunk.tx = some bytes →
    (∀ n, n < (lineCells bytes).length → exec (.frameEnd (((lineCells bytes).take n).map some)) s = .next s) ∧
    ∃ t : State, exec (.frameEnd ((lineCells bytes).map some)) s = .next t ∧
      t.sched =
        { s.sched with
          state := .idle, commitment := none, abandons := 0
          beaconDuty := s.sched.beaconDuty && c.duty != .beacon
          beaconCount := if c.duty = .beacon then 0 else s.sched.beaconCount } ∧
      t.trunk =
        { s.trunk with
          burst := false, tx := none
          rx := RxPath.at (if s.station.state = .leaving then .off else .waiting) } ∧
      t.station =
        (if s.station.state = .leaving then
          { s.station with state := .ready, muteReason := none, listenTimer := none }
        else s.station) ∧
      t.events = s.events ∧ t.delivery = s.delivery ∧ t.control = s.control ∧ t.out = s.out ∧ t.pending = s.pending ∧
      (∀ d : Fin 16, c.duty = .replay d →
        t.counters = { s.counters with replaysSent := BitVec.ofNat 16 (min (s.counters.replaysSent.toNat + 1) 65535) } ∧
        t.submission = s.submission ∧ (∀ d' : Fin 16, d' ≠ d → t.duty d' = s.duty d') ∧
        (∀ x : Duty, s.duty d = some x → x.state = .sending → t.duty d = none ∧
          t.duties.eligible = s.duties.eligible.filter (fun d' => d' != d) ∧ t.store = (s.store.clearTx x.key).2) ∧
        ((∀ x : Duty, s.duty d = some x → x.state ≠ .sending) → t.duties = s.duties ∧ t.store = s.store)) ∧
      (∀ i : Fin 8, c.duty = .gapreq i →
        t.counters = { s.counters with requestsSent := BitVec.ofNat 16 (min (s.counters.requestsSent.toNat + 1) 65535) } ∧
        t.submission = s.submission ∧ t.duties = s.duties ∧ t.store = s.store ∧
        ((s.tracker i).marker = .onWire →
          t.tracker i =
            { s.tracker i with
              marker := .none
              attempts :=
                if s.setup.attemptLimit ≤ (s.tracker i).attempts then (s.tracker i).attempts
                else (s.tracker i).attempts + 1
              state := if (s.tracker i).state = .delay then .wait else (s.tracker i).state
              timer :=
                if (s.tracker i).state = .delay then .repairTimeout s.setup.repairTimeout
                else (s.tracker i).timer } ∧
          t.pool.requests = s.pool.requests.filter (fun r => r.tracker != i) ∧
          ∀ j : Fin 8, j ≠ i → t.tracker j = s.tracker j) ∧
        ((s.tracker i).marker ≠ .onWire → t.pool = s.pool)) ∧
      (∀ (h : DataDuty) (rest : List DataDuty), c.duty = .data → s.submission.queue = h :: rest →
        h.marker = .sending →
        t.submission = { s.submission with queue := rest, nextUntx := h.seq + 1 } ∧
        t.store = (s.store.clearTx { origin := s.stn, epoch := s.submission.ownEpoch, seq := h.seq }).2 ∧
        t.duties = s.duties ∧ t.counters = s.counters ∧
        (t.ctx s.stn).horizon = if s.setup.loopback then h.seq else (s.ctx s.stn).horizon) ∧
      (c.duty = .beacon → t.submission = s.submission ∧ t.store = s.store ∧ t.duties = s.duties ∧ t.pool = s.pool ∧
        t.counters = s.counters)

/-- COLLISION of a duty below its sixteenth, at the first cell read back that is not the cell sent, whether its mid-cell
transition is missing or has the other direction (R150): counted, the frame stopped and the jam sent with the receive path
ignoring the line, the commitment released, and the duty back at its place with its count raised; the request of a PARKED tracker leaves the
list instead; an owner that has freed the duty changes nothing (R58, R68, R83, R119, R135, R150). That the command changes nothing
when the cells it carries show no mismatch yet is the model's choice (log entries 2 and 16). -/
def Obligations.CollisionReturnsDuty : Prop :=
  ∀ (c : Commitment) (bytes : List Byte) (before after : List BurstCell) (sent : Bool) (read : Option BurstCell) (s : State),
    s.sched.state = .sending → s.sched.commitment = some c → c.count < 15 → s.trunk.tx = some bytes →
    lineCells bytes = before ++ .data sent :: after → read ≠ some (.data sent) →
    exec (.collision (before.map some)) s = .next s ∧
    ∃ t : State, exec (.collision (before.map some ++ [read])) s = .next t ∧
      t.sched =
        { s.sched with
          state := .jamming, commitment := none
          beaconCount :=
            if c.duty = .beacon ∧ s.sched.beaconDuty = true then s.sched.beaconCount + 1 else s.sched.beaconCount } ∧
      t.trunk = { s.trunk with rx := RxPath.at .skip, tx := none } ∧
      t.counters = { s.counters with collisions := BitVec.ofNat 16 (min (s.counters.collisions.toNat + 1) 65535) } ∧
      t.store = s.store ∧ t.contexts = s.contexts ∧ t.delivery = s.delivery ∧ t.station = s.station ∧
      t.control = s.control ∧ t.events = s.events ∧ t.out = s.out ∧ t.pending = s.pending ∧
      t.duties.eligible = s.duties.eligible ∧
      (∀ d : Fin 16, t.duty d = (s.duty d).map fun x =>
        if c.duty = .replay d ∧ x.state = .sending then { x with state := .eligible, count := x.count + 1 } else x) ∧
      (∀ i : Fin 8, t.tracker i =
        if c.duty = .gapreq i ∧ (s.tracker i).marker = .onWire then
          { s.tracker i with marker := if (s.tracker i).state = .parked then .none else .pending }
        else s.tracker i) ∧
      t.pool.requests =
        (match c.duty with
        | .gapreq i =>
          if (s.tracker i).marker = .onWire then
            if (s.tracker i).state = .parked then s.pool.requests.filter (fun r => r.tracker != i)
            else s.pool.requests.map (fun r => if r.tracker = i then { r with count := r.count + 1 } else r)
          else s.pool.requests
        | _ => s.pool.requests) ∧
      t.submission =
        { s.submission with
          queue :=
            match s.submission.queue with
            | [] => []
            | h :: rest =>
              (if c.duty = .data ∧ h.marker = .sending then { h with marker := .waiting, count := h.count + 1 } else h)
                :: rest }

/-- COLLISION of a duty for the sixteenth time, at the first cell read back that is not the cell sent (R150): COLLISIONS and
ABANDONS counted, ABANDON raised, the consecutive-abandon count raised up to 3, and the duty ends: the replay
duty leaves with its TX pin, the request leaves its list and a DELAY tracker starts afresh, the DATA head leaves with its number consumed, the BEACON duty is absent. With the third abandon in a row an
ACTIVE station is MUTED with the reason ABANDON (R61, R85, R120, R136, R137, R171). -/
def Obligations.SixteenthCollisionAbandons : Prop :=
  ∀ (c : Commitment) (bytes : List Byte) (before after : List BurstCell) (sent : Bool) (read : Option BurstCell) (s : State),
    s.sched.state = .sending → s.sched.commitment = some c → 15 ≤ c.count → s.sched.abandons ≤ 3 →
    s.trunk.tx = some bytes → lineCells bytes = before ++ .data sent :: after → read ≠ some (.data sent) →
    ∃ t : State, exec (.collision (before.map some ++ [read])) s = .next t ∧ t.sched.state = .jamming ∧ t.sched.commitment = none ∧
      t.sched.abandons = min (s.sched.abandons + 1) 3 ∧
      t.trunk = { s.trunk with rx := RxPath.at .skip, tx := none } ∧
      t.counters =
        { s.counters with
          collisions := BitVec.ofNat 16 (min (s.counters.collisions.toNat + 1) 65535)
          abandons := BitVec.ofNat 16 (min (s.counters.abandons.toNat + 1) 65535) } ∧
      t.delivery = s.delivery ∧ t.control = s.control ∧ t.out = s.out ∧ t.pending = s.pending ∧
      (c.duty = .beacon → t.sched.beaconDuty = false ∧ t.sched.beaconCount = 0 ∧ t.submission = s.submission) ∧
      (∀ (h : DataDuty) (rest : List DataDuty), c.duty = .data → s.submission.queue = h :: rest →
        h.marker = .sending → t.submission = { s.submission with queue := rest, nextUntx := h.seq + 1 } ∧
        (t.ctx s.stn).horizon = if s.setup.loopback then h.seq else (s.ctx s.stn).horizon) ∧
      (∀ (d : Fin 16) (x : Duty), c.duty = .replay d → s.duty d = some x → x.state = .sending → t.duty d = none ∧
        ∀ e : Entry, t.store.find x.key = some e → e.pins.tx = false) ∧
      ((s.station.state ≠ .active ∨ s.sched.abandons < 2) → t.station = s.station ∧
        t.events = (s.raise .abandon).events ∧
        ∀ i : Fin 8, c.duty = .gapreq i → (s.tracker i).marker = .onWire →
          t.tracker i =
            { s.tracker i with
              marker := .none
              timer :=
                if (s.tracker i).state = .delay then
                  .requestDelay (s.setup.reqBase + (s.stn - (s.tracker i).origin).toNat)
                else (s.tracker i).timer } ∧
          t.pool.requests = s.pool.requests.filter (fun r => r.tracker != i)) ∧
      (s.station.state = .active → 2 ≤ s.sched.abandons →
        t.station = { s.station with state := .muted, muteReason := some .abandon } ∧
        t.events = ((s.raise .abandon).raise .muted).events ∧ t.sched.beaconDuty = false ∧
        t.sched.beaconTimer = none ∧ (∀ d : Fin 16, t.duty d = none) ∧
        ∀ i : Fin 8, (t.tracker i).state = .free)

/-! ### Rules of the whole machine -/

/-- Which commands change what Station Control holds: ACTIVE is entered by LISTEN_TIMER_RUNS_OUT from LISTENING alone (R141,
R167); a transmission begins in ACTIVE alone, by a hold-off running out (R132); the straps' samples change at MRST_RELEASE
alone (R160); the setup record changes at the master reset and its release, and in SETUP by SET, its row or its words, alone
(R163): the last word may be one of another row, when the parser already collects SET's arguments (log entry 14); the own epoch
changes at a reset, and by the JOIN that leaves SETUP, its row or its word, alone (R47, R117, R165). -/
def Obligations.StationChangesOnlyAsRuled : Prop :=
  ∀ (c : Instr) (s t : State), ParserSound s → exec c s = .next t →
    (t.station.state = .active → s.station.state ≠ .active →
      c = .listenTimerRunsOut ∧ s.station.state = .listening) ∧
    (t.sched.state = .sending → s.sched.state ≠ .sending →
      (c = .holdoffRunsOut ∨ c = .selectionCommit) ∧ s.station.state = .active) ∧
    ((t.stn ≠ s.stn ∨ t.station.rate ≠ s.station.rate) → ∃ (stn : Station) (rate : BitVec 2), c = .mrstRelease stn rate) ∧
    (t.setup ≠ s.setup → c = .masterReset ∨ (∃ (stn : Station) (rate : BitVec 2), c = .mrstRelease stn rate) ∨
      (s.station.state = .setup ∧ ((∃ field value : Word, c = .set field value) ∨
        ((∃ args : List Word, s.control.parser = .collecting .set args) ∧
          ((∃ w : Word, c = .controlWord w true) ∨ isHostCommand c = true))))) ∧
    (t.submission.ownEpoch ≠ s.submission.ownEpoch → isReset c = true ∨
      (s.station.state = .setup ∧ (c = .join ∨ c = .controlWord 0x0200 true)))

/-- No command but a reset, ACK_EVENTS and the control word that completes it clears an event flag (R182), and none but a
reset, CLEAR_COUNTERS and its control word lowers a counter (R184). A host command by its own row is taken with the parser
IDLE here, since with another command's words collected its word 0 would complete that one (log entry 14). -/
def Obligations.FlagsAndCountersStand : Prop :=
  ∀ (c : Instr) (s t : State), exec c s = .next t → isReset c = false →
    (∀ w wend, c ≠ .controlWord w wend) → (isHostCommand c = true → s.control.parser = .idle) →
    ((∀ mask, c ≠ .ackEvents mask) → ∀ e : Event, s.isRaised e = true → t.isRaised e = true) ∧
    (c ≠ .clearCounters → ∀ (i : Nat) (a b : Word), s.counters.words[i]? = some a → t.counters.words[i]? = some b →
      a.toNat ≤ b.toNat)
end

