-- ==== Sys2Proof/Laws/State.lean ====
section
/-! SUPPORT. One lemma per block per replacement of a block, and what reads of the tables give after writes to them. Every
later proof rewrites with these and unfolds no record update. -/

namespace Sys2Proof.Machine

/-! ### State.withStore -/

@[simp] theorem State.withStore_store (s : State) (x : Store) : (s.withStore x).store = x := rfl
@[simp] theorem State.withStore_contexts (s : State) (x : Store) : (s.withStore x).contexts = s.contexts := rfl
@[simp] theorem State.withStore_pool (s : State) (x : Store) : (s.withStore x).pool = s.pool := rfl
@[simp] theorem State.withStore_duties (s : State) (x : Store) : (s.withStore x).duties = s.duties := rfl
@[simp] theorem State.withStore_delivery (s : State) (x : Store) : (s.withStore x).delivery = s.delivery := rfl
@[simp] theorem State.withStore_submission (s : State) (x : Store) : (s.withStore x).submission = s.submission := rfl
@[simp] theorem State.withStore_sched (s : State) (x : Store) : (s.withStore x).sched = s.sched := rfl
@[simp] theorem State.withStore_trunk (s : State) (x : Store) : (s.withStore x).trunk = s.trunk := rfl
@[simp] theorem State.withStore_station (s : State) (x : Store) : (s.withStore x).station = s.station := rfl
@[simp] theorem State.withStore_control (s : State) (x : Store) : (s.withStore x).control = s.control := rfl
@[simp] theorem State.withStore_events (s : State) (x : Store) : (s.withStore x).events = s.events := rfl
@[simp] theorem State.withStore_counters (s : State) (x : Store) : (s.withStore x).counters = s.counters := rfl
@[simp] theorem State.withStore_out (s : State) (x : Store) : (s.withStore x).out = s.out := rfl
@[simp] theorem State.withStore_pending (s : State) (x : Store) : (s.withStore x).pending = s.pending := rfl

/-! ### State.withContexts -/

@[simp] theorem State.withContexts_store (s : State) (x : Vector Context 32) : (s.withContexts x).store = s.store := rfl
@[simp] theorem State.withContexts_contexts (s : State) (x : Vector Context 32) : (s.withContexts x).contexts = x := rfl
@[simp] theorem State.withContexts_pool (s : State) (x : Vector Context 32) : (s.withContexts x).pool = s.pool := rfl
@[simp] theorem State.withContexts_duties (s : State) (x : Vector Context 32) : (s.withContexts x).duties = s.duties := rfl
@[simp] theorem State.withContexts_delivery (s : State) (x : Vector Context 32) : (s.withContexts x).delivery = s.delivery := rfl
@[simp] theorem State.withContexts_submission (s : State) (x : Vector Context 32) : (s.withContexts x).submission = s.submission := rfl
@[simp] theorem State.withContexts_sched (s : State) (x : Vector Context 32) : (s.withContexts x).sched = s.sched := rfl
@[simp] theorem State.withContexts_trunk (s : State) (x : Vector Context 32) : (s.withContexts x).trunk = s.trunk := rfl
@[simp] theorem State.withContexts_station (s : State) (x : Vector Context 32) : (s.withContexts x).station = s.station := rfl
@[simp] theorem State.withContexts_control (s : State) (x : Vector Context 32) : (s.withContexts x).control = s.control := rfl
@[simp] theorem State.withContexts_events (s : State) (x : Vector Context 32) : (s.withContexts x).events = s.events := rfl
@[simp] theorem State.withContexts_counters (s : State) (x : Vector Context 32) : (s.withContexts x).counters = s.counters := rfl
@[simp] theorem State.withContexts_out (s : State) (x : Vector Context 32) : (s.withContexts x).out = s.out := rfl
@[simp] theorem State.withContexts_pending (s : State) (x : Vector Context 32) : (s.withContexts x).pending = s.pending := rfl

/-! ### State.withPool -/

@[simp] theorem State.withPool_store (s : State) (x : TrackerPool) : (s.withPool x).store = s.store := rfl
@[simp] theorem State.withPool_contexts (s : State) (x : TrackerPool) : (s.withPool x).contexts = s.contexts := rfl
@[simp] theorem State.withPool_pool (s : State) (x : TrackerPool) : (s.withPool x).pool = x := rfl
@[simp] theorem State.withPool_duties (s : State) (x : TrackerPool) : (s.withPool x).duties = s.duties := rfl
@[simp] theorem State.withPool_delivery (s : State) (x : TrackerPool) : (s.withPool x).delivery = s.delivery := rfl
@[simp] theorem State.withPool_submission (s : State) (x : TrackerPool) : (s.withPool x).submission = s.submission := rfl
@[simp] theorem State.withPool_sched (s : State) (x : TrackerPool) : (s.withPool x).sched = s.sched := rfl
@[simp] theorem State.withPool_trunk (s : State) (x : TrackerPool) : (s.withPool x).trunk = s.trunk := rfl
@[simp] theorem State.withPool_station (s : State) (x : TrackerPool) : (s.withPool x).station = s.station := rfl
@[simp] theorem State.withPool_control (s : State) (x : TrackerPool) : (s.withPool x).control = s.control := rfl
@[simp] theorem State.withPool_events (s : State) (x : TrackerPool) : (s.withPool x).events = s.events := rfl
@[simp] theorem State.withPool_counters (s : State) (x : TrackerPool) : (s.withPool x).counters = s.counters := rfl
@[simp] theorem State.withPool_out (s : State) (x : TrackerPool) : (s.withPool x).out = s.out := rfl
@[simp] theorem State.withPool_pending (s : State) (x : TrackerPool) : (s.withPool x).pending = s.pending := rfl

/-! ### State.withDuties -/

@[simp] theorem State.withDuties_store (s : State) (x : DutyPool) : (s.withDuties x).store = s.store := rfl
@[simp] theorem State.withDuties_contexts (s : State) (x : DutyPool) : (s.withDuties x).contexts = s.contexts := rfl
@[simp] theorem State.withDuties_pool (s : State) (x : DutyPool) : (s.withDuties x).pool = s.pool := rfl
@[simp] theorem State.withDuties_duties (s : State) (x : DutyPool) : (s.withDuties x).duties = x := rfl
@[simp] theorem State.withDuties_delivery (s : State) (x : DutyPool) : (s.withDuties x).delivery = s.delivery := rfl
@[simp] theorem State.withDuties_submission (s : State) (x : DutyPool) : (s.withDuties x).submission = s.submission := rfl
@[simp] theorem State.withDuties_sched (s : State) (x : DutyPool) : (s.withDuties x).sched = s.sched := rfl
@[simp] theorem State.withDuties_trunk (s : State) (x : DutyPool) : (s.withDuties x).trunk = s.trunk := rfl
@[simp] theorem State.withDuties_station (s : State) (x : DutyPool) : (s.withDuties x).station = s.station := rfl
@[simp] theorem State.withDuties_control (s : State) (x : DutyPool) : (s.withDuties x).control = s.control := rfl
@[simp] theorem State.withDuties_events (s : State) (x : DutyPool) : (s.withDuties x).events = s.events := rfl
@[simp] theorem State.withDuties_counters (s : State) (x : DutyPool) : (s.withDuties x).counters = s.counters := rfl
@[simp] theorem State.withDuties_out (s : State) (x : DutyPool) : (s.withDuties x).out = s.out := rfl
@[simp] theorem State.withDuties_pending (s : State) (x : DutyPool) : (s.withDuties x).pending = s.pending := rfl

/-! ### State.withDelivery -/

@[simp] theorem State.withDelivery_store (s : State) (x : Delivery) : (s.withDelivery x).store = s.store := rfl
@[simp] theorem State.withDelivery_contexts (s : State) (x : Delivery) : (s.withDelivery x).contexts = s.contexts := rfl
@[simp] theorem State.withDelivery_pool (s : State) (x : Delivery) : (s.withDelivery x).pool = s.pool := rfl
@[simp] theorem State.withDelivery_duties (s : State) (x : Delivery) : (s.withDelivery x).duties = s.duties := rfl
@[simp] theorem State.withDelivery_delivery (s : State) (x : Delivery) : (s.withDelivery x).delivery = x := rfl
@[simp] theorem State.withDelivery_submission (s : State) (x : Delivery) : (s.withDelivery x).submission = s.submission := rfl
@[simp] theorem State.withDelivery_sched (s : State) (x : Delivery) : (s.withDelivery x).sched = s.sched := rfl
@[simp] theorem State.withDelivery_trunk (s : State) (x : Delivery) : (s.withDelivery x).trunk = s.trunk := rfl
@[simp] theorem State.withDelivery_station (s : State) (x : Delivery) : (s.withDelivery x).station = s.station := rfl
@[simp] theorem State.withDelivery_control (s : State) (x : Delivery) : (s.withDelivery x).control = s.control := rfl
@[simp] theorem State.withDelivery_events (s : State) (x : Delivery) : (s.withDelivery x).events = s.events := rfl
@[simp] theorem State.withDelivery_counters (s : State) (x : Delivery) : (s.withDelivery x).counters = s.counters := rfl
@[simp] theorem State.withDelivery_out (s : State) (x : Delivery) : (s.withDelivery x).out = s.out := rfl
@[simp] theorem State.withDelivery_pending (s : State) (x : Delivery) : (s.withDelivery x).pending = s.pending := rfl

/-! ### State.withSubmission -/

@[simp] theorem State.withSubmission_store (s : State) (x : Submission) : (s.withSubmission x).store = s.store := rfl
@[simp] theorem State.withSubmission_contexts (s : State) (x : Submission) : (s.withSubmission x).contexts = s.contexts := rfl
@[simp] theorem State.withSubmission_pool (s : State) (x : Submission) : (s.withSubmission x).pool = s.pool := rfl
@[simp] theorem State.withSubmission_duties (s : State) (x : Submission) : (s.withSubmission x).duties = s.duties := rfl
@[simp] theorem State.withSubmission_delivery (s : State) (x : Submission) : (s.withSubmission x).delivery = s.delivery := rfl
@[simp] theorem State.withSubmission_submission (s : State) (x : Submission) : (s.withSubmission x).submission = x := rfl
@[simp] theorem State.withSubmission_sched (s : State) (x : Submission) : (s.withSubmission x).sched = s.sched := rfl
@[simp] theorem State.withSubmission_trunk (s : State) (x : Submission) : (s.withSubmission x).trunk = s.trunk := rfl
@[simp] theorem State.withSubmission_station (s : State) (x : Submission) : (s.withSubmission x).station = s.station := rfl
@[simp] theorem State.withSubmission_control (s : State) (x : Submission) : (s.withSubmission x).control = s.control := rfl
@[simp] theorem State.withSubmission_events (s : State) (x : Submission) : (s.withSubmission x).events = s.events := rfl
@[simp] theorem State.withSubmission_counters (s : State) (x : Submission) : (s.withSubmission x).counters = s.counters := rfl
@[simp] theorem State.withSubmission_out (s : State) (x : Submission) : (s.withSubmission x).out = s.out := rfl
@[simp] theorem State.withSubmission_pending (s : State) (x : Submission) : (s.withSubmission x).pending = s.pending := rfl

/-! ### State.withSched -/

@[simp] theorem State.withSched_store (s : State) (x : Scheduler) : (s.withSched x).store = s.store := rfl
@[simp] theorem State.withSched_contexts (s : State) (x : Scheduler) : (s.withSched x).contexts = s.contexts := rfl
@[simp] theorem State.withSched_pool (s : State) (x : Scheduler) : (s.withSched x).pool = s.pool := rfl
@[simp] theorem State.withSched_duties (s : State) (x : Scheduler) : (s.withSched x).duties = s.duties := rfl
@[simp] theorem State.withSched_delivery (s : State) (x : Scheduler) : (s.withSched x).delivery = s.delivery := rfl
@[simp] theorem State.withSched_submission (s : State) (x : Scheduler) : (s.withSched x).submission = s.submission := rfl
@[simp] theorem State.withSched_sched (s : State) (x : Scheduler) : (s.withSched x).sched = x := rfl
@[simp] theorem State.withSched_trunk (s : State) (x : Scheduler) : (s.withSched x).trunk = s.trunk := rfl
@[simp] theorem State.withSched_station (s : State) (x : Scheduler) : (s.withSched x).station = s.station := rfl
@[simp] theorem State.withSched_control (s : State) (x : Scheduler) : (s.withSched x).control = s.control := rfl
@[simp] theorem State.withSched_events (s : State) (x : Scheduler) : (s.withSched x).events = s.events := rfl
@[simp] theorem State.withSched_counters (s : State) (x : Scheduler) : (s.withSched x).counters = s.counters := rfl
@[simp] theorem State.withSched_out (s : State) (x : Scheduler) : (s.withSched x).out = s.out := rfl
@[simp] theorem State.withSched_pending (s : State) (x : Scheduler) : (s.withSched x).pending = s.pending := rfl

/-! ### State.withTrunk -/

@[simp] theorem State.withTrunk_store (s : State) (x : Trunk) : (s.withTrunk x).store = s.store := rfl
@[simp] theorem State.withTrunk_contexts (s : State) (x : Trunk) : (s.withTrunk x).contexts = s.contexts := rfl
@[simp] theorem State.withTrunk_pool (s : State) (x : Trunk) : (s.withTrunk x).pool = s.pool := rfl
@[simp] theorem State.withTrunk_duties (s : State) (x : Trunk) : (s.withTrunk x).duties = s.duties := rfl
@[simp] theorem State.withTrunk_delivery (s : State) (x : Trunk) : (s.withTrunk x).delivery = s.delivery := rfl
@[simp] theorem State.withTrunk_submission (s : State) (x : Trunk) : (s.withTrunk x).submission = s.submission := rfl
@[simp] theorem State.withTrunk_sched (s : State) (x : Trunk) : (s.withTrunk x).sched = s.sched := rfl
@[simp] theorem State.withTrunk_trunk (s : State) (x : Trunk) : (s.withTrunk x).trunk = x := rfl
@[simp] theorem State.withTrunk_station (s : State) (x : Trunk) : (s.withTrunk x).station = s.station := rfl
@[simp] theorem State.withTrunk_control (s : State) (x : Trunk) : (s.withTrunk x).control = s.control := rfl
@[simp] theorem State.withTrunk_events (s : State) (x : Trunk) : (s.withTrunk x).events = s.events := rfl
@[simp] theorem State.withTrunk_counters (s : State) (x : Trunk) : (s.withTrunk x).counters = s.counters := rfl
@[simp] theorem State.withTrunk_out (s : State) (x : Trunk) : (s.withTrunk x).out = s.out := rfl
@[simp] theorem State.withTrunk_pending (s : State) (x : Trunk) : (s.withTrunk x).pending = s.pending := rfl

/-! ### State.withStation -/

@[simp] theorem State.withStation_store (s : State) (x : StationControl) : (s.withStation x).store = s.store := rfl
@[simp] theorem State.withStation_contexts (s : State) (x : StationControl) : (s.withStation x).contexts = s.contexts := rfl
@[simp] theorem State.withStation_pool (s : State) (x : StationControl) : (s.withStation x).pool = s.pool := rfl
@[simp] theorem State.withStation_duties (s : State) (x : StationControl) : (s.withStation x).duties = s.duties := rfl
@[simp] theorem State.withStation_delivery (s : State) (x : StationControl) : (s.withStation x).delivery = s.delivery := rfl
@[simp] theorem State.withStation_submission (s : State) (x : StationControl) : (s.withStation x).submission = s.submission := rfl
@[simp] theorem State.withStation_sched (s : State) (x : StationControl) : (s.withStation x).sched = s.sched := rfl
@[simp] theorem State.withStation_trunk (s : State) (x : StationControl) : (s.withStation x).trunk = s.trunk := rfl
@[simp] theorem State.withStation_station (s : State) (x : StationControl) : (s.withStation x).station = x := rfl
@[simp] theorem State.withStation_control (s : State) (x : StationControl) : (s.withStation x).control = s.control := rfl
@[simp] theorem State.withStation_events (s : State) (x : StationControl) : (s.withStation x).events = s.events := rfl
@[simp] theorem State.withStation_counters (s : State) (x : StationControl) : (s.withStation x).counters = s.counters := rfl
@[simp] theorem State.withStation_out (s : State) (x : StationControl) : (s.withStation x).out = s.out := rfl
@[simp] theorem State.withStation_pending (s : State) (x : StationControl) : (s.withStation x).pending = s.pending := rfl

/-! ### State.withControl -/

@[simp] theorem State.withControl_store (s : State) (x : Control) : (s.withControl x).store = s.store := rfl
@[simp] theorem State.withControl_contexts (s : State) (x : Control) : (s.withControl x).contexts = s.contexts := rfl
@[simp] theorem State.withControl_pool (s : State) (x : Control) : (s.withControl x).pool = s.pool := rfl
@[simp] theorem State.withControl_duties (s : State) (x : Control) : (s.withControl x).duties = s.duties := rfl
@[simp] theorem State.withControl_delivery (s : State) (x : Control) : (s.withControl x).delivery = s.delivery := rfl
@[simp] theorem State.withControl_submission (s : State) (x : Control) : (s.withControl x).submission = s.submission := rfl
@[simp] theorem State.withControl_sched (s : State) (x : Control) : (s.withControl x).sched = s.sched := rfl
@[simp] theorem State.withControl_trunk (s : State) (x : Control) : (s.withControl x).trunk = s.trunk := rfl
@[simp] theorem State.withControl_station (s : State) (x : Control) : (s.withControl x).station = s.station := rfl
@[simp] theorem State.withControl_control (s : State) (x : Control) : (s.withControl x).control = x := rfl
@[simp] theorem State.withControl_events (s : State) (x : Control) : (s.withControl x).events = s.events := rfl
@[simp] theorem State.withControl_counters (s : State) (x : Control) : (s.withControl x).counters = s.counters := rfl
@[simp] theorem State.withControl_out (s : State) (x : Control) : (s.withControl x).out = s.out := rfl
@[simp] theorem State.withControl_pending (s : State) (x : Control) : (s.withControl x).pending = s.pending := rfl

/-! ### State.withEvents -/

@[simp] theorem State.withEvents_store (s : State) (x : Events) : (s.withEvents x).store = s.store := rfl
@[simp] theorem State.withEvents_contexts (s : State) (x : Events) : (s.withEvents x).contexts = s.contexts := rfl
@[simp] theorem State.withEvents_pool (s : State) (x : Events) : (s.withEvents x).pool = s.pool := rfl
@[simp] theorem State.withEvents_duties (s : State) (x : Events) : (s.withEvents x).duties = s.duties := rfl
@[simp] theorem State.withEvents_delivery (s : State) (x : Events) : (s.withEvents x).delivery = s.delivery := rfl
@[simp] theorem State.withEvents_submission (s : State) (x : Events) : (s.withEvents x).submission = s.submission := rfl
@[simp] theorem State.withEvents_sched (s : State) (x : Events) : (s.withEvents x).sched = s.sched := rfl
@[simp] theorem State.withEvents_trunk (s : State) (x : Events) : (s.withEvents x).trunk = s.trunk := rfl
@[simp] theorem State.withEvents_station (s : State) (x : Events) : (s.withEvents x).station = s.station := rfl
@[simp] theorem State.withEvents_control (s : State) (x : Events) : (s.withEvents x).control = s.control := rfl
@[simp] theorem State.withEvents_events (s : State) (x : Events) : (s.withEvents x).events = x := rfl
@[simp] theorem State.withEvents_counters (s : State) (x : Events) : (s.withEvents x).counters = s.counters := rfl
@[simp] theorem State.withEvents_out (s : State) (x : Events) : (s.withEvents x).out = s.out := rfl
@[simp] theorem State.withEvents_pending (s : State) (x : Events) : (s.withEvents x).pending = s.pending := rfl

/-! ### State.withCounters -/

@[simp] theorem State.withCounters_store (s : State) (x : Counters) : (s.withCounters x).store = s.store := rfl
@[simp] theorem State.withCounters_contexts (s : State) (x : Counters) : (s.withCounters x).contexts = s.contexts := rfl
@[simp] theorem State.withCounters_pool (s : State) (x : Counters) : (s.withCounters x).pool = s.pool := rfl
@[simp] theorem State.withCounters_duties (s : State) (x : Counters) : (s.withCounters x).duties = s.duties := rfl
@[simp] theorem State.withCounters_delivery (s : State) (x : Counters) : (s.withCounters x).delivery = s.delivery := rfl
@[simp] theorem State.withCounters_submission (s : State) (x : Counters) : (s.withCounters x).submission = s.submission := rfl
@[simp] theorem State.withCounters_sched (s : State) (x : Counters) : (s.withCounters x).sched = s.sched := rfl
@[simp] theorem State.withCounters_trunk (s : State) (x : Counters) : (s.withCounters x).trunk = s.trunk := rfl
@[simp] theorem State.withCounters_station (s : State) (x : Counters) : (s.withCounters x).station = s.station := rfl
@[simp] theorem State.withCounters_control (s : State) (x : Counters) : (s.withCounters x).control = s.control := rfl
@[simp] theorem State.withCounters_events (s : State) (x : Counters) : (s.withCounters x).events = s.events := rfl
@[simp] theorem State.withCounters_counters (s : State) (x : Counters) : (s.withCounters x).counters = x := rfl
@[simp] theorem State.withCounters_out (s : State) (x : Counters) : (s.withCounters x).out = s.out := rfl
@[simp] theorem State.withCounters_pending (s : State) (x : Counters) : (s.withCounters x).pending = s.pending := rfl

/-! ### State.withOut -/

@[simp] theorem State.withOut_store (s : State) (x : ReadPins) : (s.withOut x).store = s.store := rfl
@[simp] theorem State.withOut_contexts (s : State) (x : ReadPins) : (s.withOut x).contexts = s.contexts := rfl
@[simp] theorem State.withOut_pool (s : State) (x : ReadPins) : (s.withOut x).pool = s.pool := rfl
@[simp] theorem State.withOut_duties (s : State) (x : ReadPins) : (s.withOut x).duties = s.duties := rfl
@[simp] theorem State.withOut_delivery (s : State) (x : ReadPins) : (s.withOut x).delivery = s.delivery := rfl
@[simp] theorem State.withOut_submission (s : State) (x : ReadPins) : (s.withOut x).submission = s.submission := rfl
@[simp] theorem State.withOut_sched (s : State) (x : ReadPins) : (s.withOut x).sched = s.sched := rfl
@[simp] theorem State.withOut_trunk (s : State) (x : ReadPins) : (s.withOut x).trunk = s.trunk := rfl
@[simp] theorem State.withOut_station (s : State) (x : ReadPins) : (s.withOut x).station = s.station := rfl
@[simp] theorem State.withOut_control (s : State) (x : ReadPins) : (s.withOut x).control = s.control := rfl
@[simp] theorem State.withOut_events (s : State) (x : ReadPins) : (s.withOut x).events = s.events := rfl
@[simp] theorem State.withOut_counters (s : State) (x : ReadPins) : (s.withOut x).counters = s.counters := rfl
@[simp] theorem State.withOut_out (s : State) (x : ReadPins) : (s.withOut x).out = x := rfl
@[simp] theorem State.withOut_pending (s : State) (x : ReadPins) : (s.withOut x).pending = s.pending := rfl

/-! ### State.withPending -/

@[simp] theorem State.withPending_store (s : State) (x : List Instr) : (s.withPending x).store = s.store := rfl
@[simp] theorem State.withPending_contexts (s : State) (x : List Instr) : (s.withPending x).contexts = s.contexts := rfl
@[simp] theorem State.withPending_pool (s : State) (x : List Instr) : (s.withPending x).pool = s.pool := rfl
@[simp] theorem State.withPending_duties (s : State) (x : List Instr) : (s.withPending x).duties = s.duties := rfl
@[simp] theorem State.withPending_delivery (s : State) (x : List Instr) : (s.withPending x).delivery = s.delivery := rfl
@[simp] theorem State.withPending_submission (s : State) (x : List Instr) : (s.withPending x).submission = s.submission := rfl
@[simp] theorem State.withPending_sched (s : State) (x : List Instr) : (s.withPending x).sched = s.sched := rfl
@[simp] theorem State.withPending_trunk (s : State) (x : List Instr) : (s.withPending x).trunk = s.trunk := rfl
@[simp] theorem State.withPending_station (s : State) (x : List Instr) : (s.withPending x).station = s.station := rfl
@[simp] theorem State.withPending_control (s : State) (x : List Instr) : (s.withPending x).control = s.control := rfl
@[simp] theorem State.withPending_events (s : State) (x : List Instr) : (s.withPending x).events = s.events := rfl
@[simp] theorem State.withPending_counters (s : State) (x : List Instr) : (s.withPending x).counters = s.counters := rfl
@[simp] theorem State.withPending_out (s : State) (x : List Instr) : (s.withPending x).out = s.out := rfl
@[simp] theorem State.withPending_pending (s : State) (x : List Instr) : (s.withPending x).pending = x := rfl

/-! ### Short names -/

theorem State.stn_eq (s : State) : s.stn = s.station.stn := rfl
theorem State.setup_eq (s : State) : s.setup = s.station.setup := rfl
theorem State.isActive_iff (s : State) : s.isActive = true ↔ s.station.state = .active := by simp [State.isActive]

/-! ### Reads after writes -/

@[simp] theorem State.ctx_setCtx_same (s : State) (n : Station) (c : Context) : (s.setCtx n c).ctx n = c := by
  simp [State.ctx, State.setCtx]

theorem State.ctx_setCtx_other (s : State) (n m : Station) (c : Context) (h : m ≠ n) :
    (s.setCtx n c).ctx m = s.ctx m := by
  have h' : n.toNat ≠ m.toNat := fun e => h (BitVec.eq_of_toNat_eq e.symm)
  simp [State.ctx, State.setCtx, h']

theorem State.ctx_setCtx (s : State) (n m : Station) (c : Context) :
    (s.setCtx n c).ctx m = if m = n then c else s.ctx m := by
  by_cases h : m = n
  · subst h; simp
  · simp [h, State.ctx_setCtx_other]

@[simp] theorem State.tracker_setTracker_same (s : State) (i : Fin 8) (x : Tracker) : (s.setTracker i x).tracker i = x := by
  simp [State.tracker, State.setTracker]

theorem State.tracker_setTracker_other (s : State) (i j : Fin 8) (x : Tracker) (h : j ≠ i) :
    (s.setTracker i x).tracker j = s.tracker j := by
  have h' : i.val ≠ j.val := fun e => h (Fin.ext e.symm)
  simp [State.tracker, State.setTracker, h']

theorem State.tracker_setTracker (s : State) (i j : Fin 8) (x : Tracker) :
    (s.setTracker i x).tracker j = if j = i then x else s.tracker j := by
  by_cases h : j = i
  · subst h; simp
  · simp [h, State.tracker_setTracker_other]

@[simp] theorem State.duty_setDuty_same (s : State) (d : Fin 16) (x : Option Duty) : (s.setDuty d x).duty d = x := by
  simp [State.duty, State.setDuty]

theorem State.duty_setDuty_other (s : State) (d e : Fin 16) (x : Option Duty) (h : e ≠ d) :
    (s.setDuty d x).duty e = s.duty e := by
  have h' : d.val ≠ e.val := fun k => h (Fin.ext k.symm)
  simp [State.duty, State.setDuty, h']

theorem State.duty_setDuty (s : State) (d e : Fin 16) (x : Option Duty) :
    (s.setDuty d x).duty e = if e = d then x else s.duty e := by
  by_cases h : e = d
  · subst h; simp
  · simp [h, State.duty_setDuty_other]

theorem State.ctx_congr {s t : State} (h : t.contexts = s.contexts) (o : Station) : t.ctx o = s.ctx o := by
  simp [State.ctx, h]

theorem State.tracker_congr {s t : State} (h : t.pool.trackers = s.pool.trackers) (i : Fin 8) : t.tracker i = s.tracker i := by
  simp [State.tracker, h]

theorem State.duty_congr {s t : State} (h : t.duties.slots = s.duties.slots) (d : Fin 16) : t.duty d = s.duty d := by
  simp [State.duty, h]

@[simp] theorem State.pool_setTracker_requests (s : State) (i : Fin 8) (x : Tracker) :
    (s.setTracker i x).pool.requests = s.pool.requests := rfl
@[simp] theorem State.pool_setRequests_requests (s : State) (l : List Request) : (s.setRequests l).pool.requests = l := rfl
@[simp] theorem State.tracker_setRequests (s : State) (l : List Request) (i : Fin 8) :
    (s.setRequests l).tracker i = s.tracker i := rfl
@[simp] theorem State.duties_setDuty_eligible (s : State) (d : Fin 16) (x : Option Duty) :
    (s.setDuty d x).duties.eligible = s.duties.eligible := rfl
@[simp] theorem State.duties_setEligible_eligible (s : State) (l : List (Fin 16)) :
    (s.setEligible l).duties.eligible = l := rfl
@[simp] theorem State.duty_setEligible (s : State) (l : List (Fin 16)) (d : Fin 16) :
    (s.setEligible l).duty d = s.duty d := rfl

end Sys2Proof.Machine
end

