-- ==== Sys2Proof/Laws/Frames.lean ====
section
/-! SUPPORT. Frames: which blocks of the state an operation may change. `Only bs s t` says that `t` differs from `s` in the blocks
`bs` alone; each operation that many commands share has one lemma `<operation>_only`, and a proof reads a single block off it
by `(lemma) .store (by decide)`. -/

namespace Sys2Proof.Machine

set_option Elab.async false

/-- The blocks of the state. -/
inductive Block where
  | store
  | contexts
  | pool
  | duties
  | delivery
  | submission
  | sched
  | trunk
  | station
  | control
  | events
  | counters
  | out
  | pending
deriving DecidableEq, Repr

/-- The block is the same in both states. -/
def Block.same : Block → State → State → Prop
  | .store, s, t => t.store = s.store
  | .contexts, s, t => t.contexts = s.contexts
  | .pool, s, t => t.pool = s.pool
  | .duties, s, t => t.duties = s.duties
  | .delivery, s, t => t.delivery = s.delivery
  | .submission, s, t => t.submission = s.submission
  | .sched, s, t => t.sched = s.sched
  | .trunk, s, t => t.trunk = s.trunk
  | .station, s, t => t.station = s.station
  | .control, s, t => t.control = s.control
  | .events, s, t => t.events = s.events
  | .counters, s, t => t.counters = s.counters
  | .out, s, t => t.out = s.out
  | .pending, s, t => t.pending = s.pending

/-- Only the blocks `bs` may differ. -/
def Only (bs : List Block) (s t : State) : Prop := ∀ b, b ∉ bs → b.same s t

theorem Only.refl (bs : List Block) (s : State) : Only bs s s := by
  intro b _
  cases b <;> rfl

theorem Only.then {bs cs : List Block} {s t u : State} (h : Only bs s t) (k : Only cs t u) : Only (bs ++ cs) s u := by
  intro b hb
  have hb' := List.mem_append.not.1 hb
  have h1 := h b (fun x => hb' (Or.inl x))
  have h2 := k b (fun x => hb' (Or.inr x))
  cases b <;> exact Eq.trans h2 h1

theorem Only.mono {bs cs : List Block} {s t : State} (h : Only bs s t) (hs : ∀ b ∈ bs, b ∈ cs := by decide) : Only cs s t :=
  fun b hb => h b (fun x => hb (hs b x))

theorem Only.foldl {α : Type} {bs : List Block} {f : State → α → State} (h : ∀ s a, Only bs s (f s a)) (l : List α)
    (s : State) : Only bs s (l.foldl f s) := by
  induction l generalizing s with
  | nil => exact Only.refl _ _
  | cons a l ih => exact ((h s a).then (ih (f s a))).mono (fun b hb => (List.mem_append.1 hb).elim id id)

/-! ### The replacements -/

theorem withStore_only (s : State) (x : Store) : Only [.store] s (s.withStore x) := by
  intro b hb
  cases b <;> first | rfl | simp at hb
theorem withContexts_only (s : State) (x : Vector Context 32) : Only [.contexts] s (s.withContexts x) := by
  intro b hb
  cases b <;> first | rfl | simp at hb
theorem withPool_only (s : State) (x : TrackerPool) : Only [.pool] s (s.withPool x) := by
  intro b hb
  cases b <;> first | rfl | simp at hb
theorem withDuties_only (s : State) (x : DutyPool) : Only [.duties] s (s.withDuties x) := by
  intro b hb
  cases b <;> first | rfl | simp at hb
theorem withDelivery_only (s : State) (x : Delivery) : Only [.delivery] s (s.withDelivery x) := by
  intro b hb
  cases b <;> first | rfl | simp at hb
theorem withSubmission_only (s : State) (x : Submission) : Only [.submission] s (s.withSubmission x) := by
  intro b hb
  cases b <;> first | rfl | simp at hb
theorem withSched_only (s : State) (x : Scheduler) : Only [.sched] s (s.withSched x) := by
  intro b hb
  cases b <;> first | rfl | simp at hb
theorem withTrunk_only (s : State) (x : Trunk) : Only [.trunk] s (s.withTrunk x) := by
  intro b hb
  cases b <;> first | rfl | simp at hb
theorem withStation_only (s : State) (x : StationControl) : Only [.station] s (s.withStation x) := by
  intro b hb
  cases b <;> first | rfl | simp at hb
theorem withControl_only (s : State) (x : Control) : Only [.control] s (s.withControl x) := by
  intro b hb
  cases b <;> first | rfl | simp at hb
theorem withEvents_only (s : State) (x : Events) : Only [.events] s (s.withEvents x) := by
  intro b hb
  cases b <;> first | rfl | simp at hb
theorem withCounters_only (s : State) (x : Counters) : Only [.counters] s (s.withCounters x) := by
  intro b hb
  cases b <;> first | rfl | simp at hb
theorem withOut_only (s : State) (x : ReadPins) : Only [.out] s (s.withOut x) := by
  intro b hb
  cases b <;> first | rfl | simp at hb
theorem withPending_only (s : State) (x : List Instr) : Only [.pending] s (s.withPending x) := by
  intro b hb
  cases b <;> first | rfl | simp at hb

theorem setCtx_only (s : State) (n : Station) (c : Context) : Only [.contexts] s (s.setCtx n c) := withContexts_only _ _
theorem setTracker_only (s : State) (i : Fin 8) (x : Tracker) : Only [.pool] s (s.setTracker i x) := withPool_only _ _
theorem setRequests_only (s : State) (l : List Request) : Only [.pool] s (s.setRequests l) := withPool_only _ _
theorem setDuty_only (s : State) (d : Fin 16) (x : Option Duty) : Only [.duties] s (s.setDuty d x) := withDuties_only _ _
theorem setEligible_only (s : State) (l : List (Fin 16)) : Only [.duties] s (s.setEligible l) := withDuties_only _ _
theorem raise_only (s : State) (e : Event) : Only [.events] s (s.raise e) := withEvents_only _ _
theorem addCount_only (s : State) (c : Counter) (n : Nat) : Only [.counters] s (s.addCount c n) := withCounters_only _ _
theorem count_only (s : State) (c : Counter) : Only [.counters] s (s.count c) := withCounters_only _ _

/-! ### Trackers and the store's reports -/

theorem withdraw_only (s : State) (d : DutyRef) : Only [.sched] s (s.withdraw d) := by
  unfold State.withdraw
  split
  · exact withSched_only _ _
  · exact Only.refl _ _

theorem dropRequest_only (s : State) (i : Fin 8) : Only [.pool] s (s.dropRequest i) := setRequests_only _ _
theorem clearHeld_only (s : State) (o : Station) : Only [.contexts] s (s.clearHeld o) := setCtx_only _ _ _

theorem claim_only (s : State) (i : Fin 8) (o : Station) : Only [.pool, .contexts] s (s.claim i o) := by
  unfold State.claim
  split
  · exact Only.refl _ _
  · exact ((setTracker_only _ _ _).then (setCtx_only _ _ _)).mono

theorem offer_only (s : State) (i : Fin 8) : Only [.pool, .contexts] s (s.offer i) := by
  unfold State.offer
  split
  · exact claim_only _ _ _
  · exact Only.refl _ _

theorem freeTracker_only (s : State) (i : Fin 8) : Only [.pool, .contexts, .sched] s (s.freeTracker i) := by
  unfold State.freeTracker
  split
  · exact Only.refl _ _
  · have h := ((((setTracker_only s i
      { s.tracker i with
        state := .free, timer := .stopped, marker := .none, lastOrigin := (s.tracker i).origin }).then
      (dropRequest_only _ i)).then (withdraw_only _ (.gapreq i))).then (clearHeld_only _ (s.tracker i).origin))
    dsimp only
    split
    · exact (h.then (offer_only _ _)).mono
    · exact h.mono

theorem claimIfWaiting_only (s : State) (o : Station) : Only [.pool, .contexts] s (s.claimIfWaiting o) := by
  unfold State.claimIfWaiting
  split
  · split
    · exact claim_only _ _ _
    · exact Only.refl _ _
  · exact Only.refl _ _

theorem recompute_only (s : State) (i : Fin 8) : Only [.pool, .contexts, .sched] s (s.recompute i) := by
  unfold State.recompute
  dsimp only
  split
  · exact freeTracker_only _ _
  · split
    · exact (setTracker_only _ _ _).mono
    · split
      · split
        · exact (setTracker_only _ _ _).mono
        · exact (setTracker_only _ _ _).mono
      · exact (setTracker_only _ _ _).mono

theorem changeNotice_only (s : State) (o : Station) : Only [.pool, .contexts, .sched] s (s.changeNotice o) := by
  unfold State.changeNotice
  split
  · exact recompute_only _ _
  · exact (claimIfWaiting_only _ _).mono

theorem restartNotice_only (s : State) (o : Station) : Only [.pool, .contexts, .sched] s (s.restartNotice o) := by
  unfold State.restartNotice
  split
  · exact freeTracker_only _ _
  · exact Only.refl _ _

theorem offerAll_only (s : State) : Only [.pool, .contexts] s s.offerAll := Only.foldl offer_only _ _

theorem freeAllTrackers_only (s : State) : Only [.pool, .contexts, .sched] s s.freeAllTrackers :=
  Only.foldl freeTracker_only _ _

theorem park_only (s : State) (i : Fin 8) : Only [.pool, .sched] s (s.park i) := by
  unfold State.park
  dsimp only
  split
  · split
    · exact (((setTracker_only _ _ _).then (dropRequest_only _ _)).then (withdraw_only _ _)).mono
    · exact (setTracker_only _ _ _).mono
  · exact Only.refl _ _

theorem resume_only (s : State) (i : Fin 8) : Only [.pool] s (s.resume i) := by
  unfold State.resume
  dsimp only
  split
  · exact setTracker_only _ _ _
  · exact Only.refl _ _

theorem exhaustedReport_only (s : State) : Only [.pool, .sched] s s.exhaustedReport := Only.foldl park_only _ _
theorem claimableReport_only (s : State) : Only [.pool] s s.claimableReport := Only.foldl resume_only _ _

theorem reportFrom_only (s : State) (old : Nat) : Only [.pool, .sched] s (s.reportFrom old) := by
  unfold State.reportFrom
  split
  · exact exhaustedReport_only _
  · split
    · exact (claimableReport_only _).mono
    · exact Only.refl _ _

theorem applyStore_only (s : State) (st : Store) : Only [.store, .pool, .sched] s (s.applyStore st) :=
  ((withStore_only _ _).then (reportFrom_only _ _)).mono

theorem clearTx_only (s : State) (k : Key) : Only [.store, .pool, .sched] s (s.clearTx k) := applyStore_only _ _
theorem clearHanded_only (s : State) (k : Key) : Only [.store, .pool, .sched] s (s.clearHanded k) := applyStore_only _ _

/-- A claim leaves the store as it was given; its reports touch no entry (R20). -/
@[simp] theorem applyStore_store (s : State) (st : Store) : (s.applyStore st).store = st :=
  reportFrom_only (s.withStore st) _ .store (by decide)

theorem hearReplay_only (s : State) (k : Key) : Only [.pool] s (s.hearReplay k) := by
  refine Only.foldl (fun s i => ?_) _ _
  unfold State.hearReplayAt
  dsimp only
  split
  · exact setTracker_only _ _ _
  · exact Only.refl _ _

theorem hearGapreqAt_only (origin : Station) (epoch : Epoch) (first : SeqNum) (count : Nat) (s : State) (i : Fin 8) :
    Only [.pool, .sched] s (s.hearGapreqAt origin epoch first count i) := by
  unfold State.hearGapreqAt
  dsimp only
  split
  · split
    · exact (((setTracker_only _ _ _).then (dropRequest_only _ _)).then (withdraw_only _ _)).mono
    · split
      · exact (setTracker_only _ _ _).mono
      · exact Only.refl _ _
  · exact Only.refl _ _

theorem hearGapreq_only (s : State) (origin : Station) (epoch : Epoch) (first : SeqNum) (count : Nat) :
    Only [.pool, .sched] s (s.hearGapreq origin epoch first count) := Only.foldl (hearGapreqAt_only _ _ _ _) _ _

theorem requestSent_only (s : State) (i : Fin 8) : Only [.pool, .counters] s (s.requestSent i) := by
  unfold State.requestSent
  dsimp only
  split
  · exact (((count_only _ _).then (setTracker_only _ _ _)).then (dropRequest_only _ _)).mono
  · exact (count_only _ _).mono

theorem requestAbandoned_only (s : State) (i : Fin 8) : Only [.pool] s (s.requestAbandoned i) := by
  unfold State.requestAbandoned
  dsimp only
  split
  · exact ((setTracker_only _ _ _).then (dropRequest_only _ _)).mono
  · exact Only.refl _ _

theorem requestCollided_only (s : State) (i : Fin 8) : Only [.pool] s (s.requestCollided i) := by
  unfold State.requestCollided
  dsimp only
  split
  · split
    · exact ((setTracker_only _ _ _).then (dropRequest_only _ _)).mono
    · exact ((setTracker_only _ _ _).then (setRequests_only _ _)).mono
  · exact Only.refl _ _

/-! ### Contexts -/

theorem decideState_only (s : State) (o : Station) : Only [.contexts] s (s.decideState o) := by
  unfold State.decideState
  split
  · exact setCtx_only _ _ _
  · exact Only.refl _ _

theorem settle_only (s : State) (o : Station) (was : ContextState) (must : Bool) :
    Only [.pool, .contexts, .sched] s (s.settle o was must) := by
  unfold State.settle
  dsimp only
  split
  · exact ((decideState_only _ _).then (changeNotice_only _ _)).mono
  · exact (decideState_only _ _).mono

theorem tellEviction_only (s : State) (o : Station) (k : Key) : Only [.pool, .contexts, .sched] s (s.tellEviction o k) := by
  unfold State.tellEviction
  split
  · exact settle_only _ _ _ _
  · exact Only.refl _ _

theorem insertFrame_only (s : State) (o : Station) (e : Entry) :
    Only [.store, .pool, .contexts, .sched] s (s.insertFrame o e).after := by
  unfold State.insertFrame
  dsimp only
  split
  · exact Only.refl _ _
  · exact Only.refl _ _
  · exact ((withStore_only _ _).then (reportFrom_only _ _)).mono
  · exact (((withStore_only _ _).then (tellEviction_only _ _ _)).then (reportFrom_only _ _)).mono

theorem refusedDue_only (s : State) : Only [.counters, .events] s s.refusedDue :=
  ((count_only _ _).then (raise_only _ _)).mono

theorem afterDueInsert_only (s : State) (a : InsertAnswer) : Only [.counters, .events] s (s.afterDueInsert a) := by
  unfold State.afterDueInsert
  split
  · exact refusedDue_only _
  · exact Only.refl _ _
  · exact Only.refl _ _

theorem beginRestart_only (s : State) (o : Station) (epoch : Epoch) (nextDue horizon floor : SeqNum) :
    Only [.store, .pool, .contexts, .sched] s (s.beginRestart o epoch nextDue horizon floor) :=
  (((setCtx_only _ _ _).then (applyStore_only _ _)).then (setCtx_only _ _ _)).mono

theorem endRestart_only (s : State) (o : Station) : Only [.pool, .contexts, .sched] s (s.endRestart o) :=
  (((decideState_only _ _).then (restartNotice_only _ _)).then (changeNotice_only _ _)).mono

/-- What a classified frame may change (R28 to R38). -/
theorem classify_only (s : State) (m : Message) :
    Only [.store, .pool, .contexts, .sched, .counters, .events] s (s.classify m) := by
  unfold State.classify
  dsimp only
  split
  · exact Only.refl _ _
  · unfold State.syncFrame
    exact ((((setCtx_only _ _ _).then (insertFrame_only _ _ _)).then (afterDueInsert_only _ _)).then
      (settle_only _ _ _ _)).mono
  · split
    · unfold State.restartFrame
      dsimp only
      split
      · exact ((((beginRestart_only _ _ _ _ _ _).then (insertFrame_only _ _ _)).then (afterDueInsert_only _ _)).then
          (endRestart_only _ _)).mono
      · exact ((((beginRestart_only _ _ _ _ _ _).then (insertFrame_only _ _ _)).then (afterDueInsert_only _ _)).then
          (endRestart_only _ _)).mono
    · split
      · exact (count_only _ _).mono
      · split
        · unfold State.behindFrame
          dsimp only
          split
          · exact ((insertFrame_only _ _ _).then (settle_only _ _ _ _)).mono
          · exact (insertFrame_only _ _ _).mono
        · split
          · unfold State.windowFrame
            dsimp only
            split
            · exact Only.refl _ _
            · exact ((((insertFrame_only _ _ _).then (afterDueInsert_only _ _)).then (setCtx_only _ _ _)).then
                (settle_only _ _ _ _)).mono
          · unfold State.farFrame
            dsimp only
            split
            · exact Only.refl _ _
            · exact ((((setCtx_only _ _ _).then (insertFrame_only _ _ _)).then (afterDueInsert_only _ _)).then
                (settle_only _ _ _ _)).mono

/-- What a taken BEACON may change (R40, R41). -/
theorem takeBeacon_only (s : State) (o : Station) (epoch : Epoch) (nextSeq : SeqNum) :
    Only [.store, .pool, .contexts, .sched] s (s.takeBeacon o epoch nextSeq) := by
  unfold State.takeBeacon
  dsimp only
  split
  · exact Only.refl _ _
  · exact (setCtx_only _ _ _).mono
  · split
    · unfold State.restartBeacon
      dsimp only
      split
      · exact ((beginRestart_only _ _ _ _ _ _).then (endRestart_only _ _)).mono
      · exact ((beginRestart_only _ _ _ _ _ _).then (endRestart_only _ _)).mono
    · split
      · unfold State.raiseByBeacon
        dsimp only
        split
        · exact ((setCtx_only _ _ _).then (settle_only _ _ _ _)).mono
        · exact Only.refl _ _
      · exact Only.refl _ _

theorem giveUp_only (s : State) (o : Station) (epoch : Epoch) (value : SeqNum) :
    Only [.pool, .contexts, .sched] s (s.giveUp o epoch value) := by
  unfold State.giveUp
  dsimp only
  split
  · exact ((setCtx_only _ _ _).then (settle_only _ _ _ _)).mono
  · exact Only.refl _ _

theorem advance_only (s : State) (o : Station) (n : SeqNum) : Only [.pool, .contexts, .sched] s (s.advance o n) := by
  unfold State.advance
  dsimp only
  split
  · exact ((setCtx_only _ _ _).then (settle_only _ _ _ _)).mono
  · exact (setCtx_only _ _ _).mono

theorem advanceRestart_only (s : State) (o : Station) : Only [.contexts] s (s.advanceRestart o) := setCtx_only _ _ _
theorem heard_only (s : State) (n : Station) : Only [.contexts] s (s.heard n) := setCtx_only _ _ _
theorem stopSilenceTimers_only (s : State) : Only [.contexts] s s.stopSilenceTimers := withContexts_only _ _
theorem startSilenceTimers_only (s : State) : Only [.contexts] s s.startSilenceTimers := withContexts_only _ _

/-! ### Duties -/

theorem makeDuty_only (s : State) (d : Fin 16) (k : Key) (delay : Nat) : Only [.duties] s (s.makeDuty d k delay) := by
  unfold State.makeDuty
  split
  · exact ((setDuty_only _ _ _).then (setEligible_only _ _)).mono
  · exact setDuty_only _ _ _

theorem examineKey_only (requester : Station) (s : State) (k : Key) :
    Only [.store, .pool, .sched, .duties, .counters] s (s.examineKey requester k) := by
  unfold State.examineKey
  split
  · dsimp only
    split
    · exact ((applyStore_only _ _).then (makeDuty_only _ _ _ _)).mono
    · exact Only.refl _ _
    · exact Only.refl _ _
  · split
    · exact (count_only _ _).mono
    · exact Only.refl _ _

theorem answerGapreq_only (s : State) (requester origin : Station) (epoch : Epoch) (first : SeqNum) (count : Nat) :
    Only [.store, .pool, .sched, .duties, .counters] s (s.answerGapreq requester origin epoch first count) := by
  unfold State.answerGapreq
  split
  · exact Only.foldl (fun s k => examineKey_only requester s k) _ _
  · exact Only.refl _ _

theorem emptyDuty_only (s : State) (d : Fin 16) : Only [.duties, .sched] s (s.emptyDuty d) :=
  (((setDuty_only _ _ _).then (setEligible_only _ _)).then (withdraw_only _ _)).mono

theorem releaseDuty_only (s : State) (d : Fin 16) (k : Key) : Only [.store, .pool, .sched, .duties] s (s.releaseDuty d k) :=
  ((emptyDuty_only _ _).then (clearTx_only _ _)).mono

theorem cancelKey_only (s : State) (k : Key) : Only [.store, .pool, .sched, .duties] s (s.cancelKey k) := by
  refine Only.foldl (fun s d => ?_) _ _
  unfold State.cancelDuty
  split
  · exact Only.refl _ _
  · split
    · exact releaseDuty_only _ _ _
    · exact Only.refl _ _

theorem dropDuties_only (s : State) : Only [.store, .pool, .sched, .duties] s s.dropDuties := by
  refine Only.foldl (fun s d => ?_) _ _
  unfold State.dropDuty
  split
  · exact Only.refl _ _
  · exact releaseDuty_only _ _ _

theorem replayCollided_only (s : State) (d : Fin 16) : Only [.duties] s (s.replayCollided d) := by
  unfold State.replayCollided
  split
  · exact Only.refl _ _
  · split
    · exact setDuty_only _ _ _
    · exact Only.refl _ _

theorem replayEnded_only (s : State) (d : Fin 16) : Only [.store, .pool, .sched, .duties] s (s.replayEnded d) := by
  unfold State.replayEnded
  split
  · exact Only.refl _ _
  · split
    · exact releaseDuty_only _ _ _
    · exact Only.refl _ _

theorem replaySent_only (s : State) (d : Fin 16) : Only [.store, .pool, .sched, .duties, .counters] s (s.replaySent d) :=
  ((count_only _ _).then (replayEnded_only _ _)).mono

theorem makeEligible_only (s : State) (d : Fin 16) : Only [.duties] s (s.makeEligible d) := by
  unfold State.makeEligible
  split
  · exact Only.refl _ _
  · exact ((setDuty_only _ _ _).then (setEligible_only _ _)).mono

theorem giveUpRun_only (s : State) (i : Fin 8) : Only [.pool, .contexts, .sched] s (s.giveUpRun i) := by
  unfold State.giveUpRun
  dsimp only
  split
  · exact (((giveUp_only _ _ _ _).then (freeTracker_only _ _)).then (claimIfWaiting_only _ _)).mono
  · exact ((giveUp_only _ _ _ _).then (claimIfWaiting_only _ _)).mono

/-! ### Submission, delivery, Scheduler, Station Control -/

theorem rejectSubmission_only (s : State) (wend : Bool) :
    Only [.store, .pool, .sched, .events, .submission] s (s.rejectSubmission wend) :=
  (((applyStore_only _ _).then (raise_only _ _)).then (withSubmission_only _ _)).mono

theorem tellOwnContext_only (s : State) (n : SeqNum) : Only [.contexts] s (s.tellOwnContext n) := by
  unfold State.tellOwnContext
  split
  · exact setCtx_only _ _ _
  · exact Only.refl _ _

theorem dataEnded_only (s : State) : Only [.submission, .store, .pool, .sched, .contexts] s s.dataEnded := by
  unfold State.dataEnded
  split
  · exact Only.refl _ _
  · split
    · exact (((withSubmission_only _ _).then (clearTx_only _ _)).then (tellOwnContext_only _ _)).mono
    · exact Only.refl _ _

theorem dataCollided_only (s : State) : Only [.submission] s s.dataCollided := by
  unfold State.dataCollided
  split
  · exact Only.refl _ _
  · split
    · exact withSubmission_only _ _
    · exact Only.refl _ _

theorem dropHead_only (s : State) : Only [.delivery, .store, .pool, .sched] s s.dropHead := by
  unfold State.dropHead
  split
  · exact Only.refl _ _
  · dsimp only
    split
    · exact ((withDelivery_only _ _).then (clearHanded_only _ _)).mono
    · exact (withDelivery_only _ _).mono
    · exact (withDelivery_only _ _).mono

theorem startListenTimer_only (s : State) : Only [.station] s s.startListenTimer := withStation_only _ _

theorem enterReady_only (s : State) : Only [.station, .trunk, .contexts] s s.enterReady :=
  (((withStation_only _ _).then (withTrunk_only _ _)).then (stopSilenceTimers_only _)).mono

theorem quitActive_only (s : State) : Only [.store, .pool, .sched, .duties, .contexts] s s.quitActive :=
  (((withSched_only _ _).then (dropDuties_only _)).then (freeAllTrackers_only _)).mono

theorem enterMuted_only (s : State) (why : MuteReason) :
    Only [.station, .events, .store, .pool, .sched, .duties, .contexts] s (s.enterMuted why) :=
  (((withStation_only _ _).then (raise_only _ _)).then (quitActive_only _)).mono

theorem transmitterFree_only (s : State) : Only [.station, .trunk, .contexts] s s.transmitterFree := by
  unfold State.transmitterFree
  split
  · exact enterReady_only _
  · exact Only.refl _ _

theorem muteRequest_only (s : State) :
    Only [.station, .events, .store, .pool, .sched, .duties, .contexts] s s.muteRequest := by
  unfold State.muteRequest
  split
  · exact enterMuted_only _ _
  · exact Only.refl _ _

theorem tellSent_only (s : State) (d : DutyRef) :
    Only [.store, .pool, .sched, .duties, .counters, .submission, .contexts] s (s.tellSent d) := by
  unfold State.tellSent
  split
  · exact (replaySent_only _ _).mono
  · exact (requestSent_only _ _).mono
  · exact (dataEnded_only _).mono
  · exact (withSched_only _ _).mono

theorem tellCollision_only (s : State) (d : DutyRef) :
    Only [.pool, .sched, .duties, .submission] s (s.tellCollision d) := by
  unfold State.tellCollision
  split
  · exact (replayCollided_only _ _).mono
  · exact (requestCollided_only _ _).mono
  · exact (dataCollided_only _).mono
  · split
    · exact (withSched_only _ _).mono
    · exact Only.refl _ _

theorem tellAbandoned_only (s : State) (d : DutyRef) :
    Only [.store, .pool, .sched, .duties, .submission, .contexts] s (s.tellAbandoned d) := by
  unfold State.tellAbandoned
  split
  · exact (replayEnded_only _ _).mono
  · exact (requestAbandoned_only _ _).mono
  · exact (dataEnded_only _).mono
  · exact (withSched_only _ _).mono

theorem distribute_only (s : State) (f : Frame) :
    Only [.store, .pool, .contexts, .sched, .counters, .events, .duties] s (s.distribute f) := by
  unfold State.distribute
  split
  · exact ((classify_only _ _).then (cancelKey_only _ _)).mono
  · unfold State.replayFrame
    dsimp only
    split
    · exact ((hearReplay_only _ _).then (cancelKey_only _ _)).mono
    · exact (((classify_only _ _).then (hearReplay_only _ _)).then (cancelKey_only _ _)).mono
  · exact ((hearGapreq_only _ _ _ _ _).then (answerGapreq_only _ _ _ _ _ _)).mono
  · exact (takeBeacon_only _ _ _ _).mono

end Sys2Proof.Machine
end

