-- ==== Sys2Proof/Laws/Line.lean ====
section
/-! SUPPORT. Small laws of the line: line coding, the read-back, bytes and bits, the receive path over a list of cells, and the
words and counters that statements spell out. -/

namespace Sys2Proof.Machine

/-- A driven cell is read back as the cell sent, whatever the level before it (Table 8.1). -/
theorem readCell_drive (prev : Bool) (c : BurstCell) : readCell prev (BurstCell.drive prev c) = some c := by
  cases c with
  | data b => cases b <;> rfl
  | violation => cases prev <;> rfl

/-! ### Read-back (R149, R150) -/

/-- Cells read back as they were sent are no mismatch: the cells still to be sent decide. -/
theorem readBack_prefix (pre rest : List BurstCell) (read : List (Option BurstCell)) :
    readBack (pre ++ rest) (pre.map some ++ read) = readBack rest read := by
  induction pre with
  | nil => rfl
  | cons c pre ih => simp [readBack, ih]

/-- A whole frame read back as it was sent has ended, whatever the line carries after it. -/
theorem readBack_whole (sent : List BurstCell) (more : List (Option BurstCell)) :
    readBack sent (sent.map some ++ more) = .ended := by
  have h := readBack_prefix sent [] more
  rw [List.append_nil] at h
  rw [h]
  rfl

/-- The first cell that differs is the collision, whatever follows. -/
theorem readBack_differs {c : BurstCell} {r : Option BurstCell} (h : midCell r ≠ midCell (some c)) (pre post : List BurstCell)
    (more : List (Option BurstCell)) : readBack (pre ++ c :: post) (pre.map some ++ r :: more) = .mismatch := by
  rw [readBack_prefix]
  simp [readBack, h]

/-- What is read back comes to while a frame is sent. -/
theorem State.readBackCells_of_sending {s : State} {c : Commitment} {bytes : List Byte}
    (h1 : s.sched.state = .sending) (h2 : s.sched.commitment = some c) (h3 : s.trunk.tx = some bytes)
    (read : List (Option BurstCell)) :
    s.readBackCells read =
      match readBack (lineCells bytes) read with
      | .ended => s.frameEnds c
      | .mismatch => s.collides c
      | .unfinished => s := by
  cases hr : readBack (lineCells bytes) read <;> simp [State.readBackCells, h1, h2, h3, hr]

/-! ### The receive path, bytes and bits -/

@[simp] theorem RxPath.cells_nil (rx : RxPath) : rx.cells [] = rx := rfl

@[simp] theorem RxPath.cells_cons (rx : RxPath) (c : BurstCell) (cs : List BurstCell) :
    rx.cells (c :: cs) = (rx.cell c).cells cs := rfl

theorem RxPath.cells_append (rx : RxPath) (cs ds : List BurstCell) : rx.cells (cs ++ ds) = (rx.cells cs).cells ds := by
  simp [RxPath.cells, List.foldl_append]

/-- A path that is off, reads its own frame, or ignores the line takes no cell. -/
theorem RxPath.cells_of_deaf {rx : RxPath} (h : rx.path = .off ∨ rx.path = .own ∨ rx.path = .skip) (cs : List BurstCell) :
    rx.cells cs = rx := by
  induction cs with
  | nil => rfl
  | cons c cs ih =>
    rw [RxPath.cells_cons]
    have : rx.cell c = rx := by
      unfold RxPath.cell
      rcases h with h | h | h <;> rw [h]
    rw [this, ih]

/-- The first transition and the first cell of a burst come to one: a waiting path is in HUNT with nothing received. -/
theorem RxPath.cell_waiting (c : BurstCell) : (RxPath.at .waiting).cell c = (RxPath.at .hunt).cell c := rfl

@[simp] theorem bitsOfByte_length (b : Byte) : (bitsOfByte b).length = 8 := rfl

/-- Eight bits taken most significant first, kept newest first, make the byte again. -/
theorem byteOfBits_reverse_bitsOfByte (b : Byte) : byteOfBits (bitsOfByte b).reverse = b := by
  revert b
  decide +kernel

theorem joinBytes_toNat (a b : Byte) : (joinBytes a b).toNat = 256 * a.toNat + b.toNat := by
  simp only [joinBytes, BitVec.toNat_append, Nat.shiftLeft_eq]
  rw [Nat.mul_comm, ← Nat.two_pow_add_eq_or_of_lt b.isLt]

@[simp] theorem joinBytes_hi_lo (w : Word) : joinBytes (hiByte w) (loByte w) = w := by
  apply BitVec.eq_of_toNat_eq
  rw [joinBytes_toNat]
  simp only [hiByte, loByte, BitVec.extractLsb'_toNat, Nat.shiftRight_eq_div_pow]
  have := w.isLt
  omega

/-- A counter never falls when it is raised, and stops at 65535. -/
theorem satAdd_toNat (c : Word) (n : Nat) : (satAdd c n).toNat = min (c.toNat + n) 65535 := by
  simp only [satAdd, BitVec.toNat_ofNat]
  exact Nat.mod_eq_of_lt (by omega)

theorem satAdd_ge (c : Word) (n : Nat) : c.toNat ≤ (satAdd c n).toNat := by
  rw [satAdd_toNat]
  have := c.isLt
  omega

/-- A raised event stays raised when another is raised. -/
theorem State.isRaised_raise (s : State) (e f : Event) :
    (s.raise e).isRaised f = (s.isRaised f || decide (e = f)) := by
  simp only [State.raise, State.isRaised, State.withEvents, BitVec.getLsbD_or]
  congr 1
  cases e <;> cases f <;> rfl

end Sys2Proof.Machine
end

