-- ==== Sys2Proof/Laws/PerInstr.lean ====
section
/-! SUPPORT. What is said of every command as syntax, command by command: the kinds of rows are apart. A host command's row, a
reset's row and a burst's row exclude one another, and a command that carries no cells is well formed unless it is a list of
duties. -/

namespace Sys2Proof.Laws.RowKind

set_option Elab.async false

open Sys2Proof Sys2Proof.Machine

/-- A command is of at most one of the kinds: a host command, a reset, a burst decided at its silent cell. -/
def Statement (c : Instr) : Prop :=
  (isHostCommand c = true → isReset c = false ∧ burstOf c = none ∧ WellFormed c = true) ∧
    (isReset c = true → burstOf c = none ∧ WellFormed c = true) ∧ ((burstOf c).isSome = true → isReset c = false)

theorem masterReset : Statement .masterReset := by
  simp [Statement, isHostCommand, isReset, burstOf, WellFormed]

theorem mrstRelease (stn : Station) (rate : BitVec 2) : Statement (.mrstRelease stn rate) := by
  simp [Statement, isHostCommand, isReset, burstOf, WellFormed]

theorem partialReset : Statement .partialReset := by
  simp [Statement, isHostCommand, isReset, burstOf, WellFormed]

theorem dataWord (w : Word) (wend : Bool) : Statement (.dataWord w wend) := by
  simp [Statement, isHostCommand, isReset, burstOf, WellFormed]

theorem controlWord (w : Word) (wend : Bool) : Statement (.controlWord w wend) := by
  simp [Statement, isHostCommand, isReset, burstOf, WellFormed]

theorem set (field value : Word) : Statement (.set field value) := by
  simp [Statement, isHostCommand, isReset, burstOf, WellFormed]

theorem join : Statement .join := by
  simp [Statement, isHostCommand, isReset, burstOf, WellFormed]

theorem leave : Statement .leave := by
  simp [Statement, isHostCommand, isReset, burstOf, WellFormed]

theorem recover : Statement .recover := by
  simp [Statement, isHostCommand, isReset, burstOf, WellFormed]

theorem status : Statement .status := by
  simp [Statement, isHostCommand, isReset, burstOf, WellFormed]

theorem readContext (origin : Word) : Statement (.readContext origin) := by
  simp [Statement, isHostCommand, isReset, burstOf, WellFormed]

theorem readCounters : Statement .readCounters := by
  simp [Statement, isHostCommand, isReset, burstOf, WellFormed]

theorem clearCounters : Statement .clearCounters := by
  simp [Statement, isHostCommand, isReset, burstOf, WellFormed]

theorem readEvents : Statement .readEvents := by
  simp [Statement, isHostCommand, isReset, burstOf, WellFormed]

theorem ackEvents (mask : Word) : Statement (.ackEvents mask) := by
  simp [Statement, isHostCommand, isReset, burstOf, WellFormed]

theorem setEventMask (mask : Word) : Statement (.setEventMask mask) := by
  simp [Statement, isHostCommand, isReset, burstOf, WellFormed]

theorem setEventPriority (mask : Word) : Statement (.setEventPriority mask) := by
  simp [Statement, isHostCommand, isReset, burstOf, WellFormed]

theorem discardHead : Statement .discardHead := by
  simp [Statement, isHostCommand, isReset, burstOf, WellFormed]

theorem deliveryTake : Statement .deliveryTake := by
  simp [Statement, isHostCommand, isReset, burstOf, WellFormed]

theorem responseTake : Statement .responseTake := by
  simp [Statement, isHostCommand, isReset, burstOf, WellFormed]

theorem deliveryTurn : Statement .deliveryTurn := by
  simp [Statement, isHostCommand, isReset, burstOf, WellFormed]

theorem lineActivity : Statement .lineActivity := by
  simp [Statement, isHostCommand, isReset, burstOf, WellFormed]

theorem lineIdle : Statement .lineIdle := by
  simp [Statement, isHostCommand, isReset, burstOf, WellFormed]

theorem selectionCommit : Statement .selectionCommit := by
  simp [Statement, isHostCommand, isReset, burstOf, WellFormed]

theorem holdoffRunsOut : Statement .holdoffRunsOut := by
  simp [Statement, isHostCommand, isReset, burstOf, WellFormed]

theorem frameEnd (read : List (Option BurstCell)) : Statement (.frameEnd read) := by
  simp [Statement, isHostCommand, isReset, burstOf, WellFormed]

theorem collision (read : List (Option BurstCell)) : Statement (.collision read) := by
  simp [Statement, isHostCommand, isReset, burstOf, WellFormed]

theorem jamEnd : Statement .jamEnd := by
  simp [Statement, isHostCommand, isReset, burstOf, WellFormed]

theorem fragment (cells : List BurstCell) : Statement (.fragment cells) := by
  simp [Statement, isHostCommand, isReset, burstOf, WellFormed]

theorem frameError (cells : List BurstCell) : Statement (.frameError cells) := by
  simp [Statement, isHostCommand, isReset, burstOf, WellFormed]

theorem clash (cells : List BurstCell) : Statement (.clash cells) := by
  simp [Statement, isHostCommand, isReset, burstOf, WellFormed]

theorem rxData (cells : List BurstCell) : Statement (.rxData cells) := by
  simp [Statement, isHostCommand, isReset, burstOf, WellFormed]

theorem rxReplay (cells : List BurstCell) : Statement (.rxReplay cells) := by
  simp [Statement, isHostCommand, isReset, burstOf, WellFormed]

theorem rxGapreq (cells : List BurstCell) : Statement (.rxGapreq cells) := by
  simp [Statement, isHostCommand, isReset, burstOf, WellFormed]

theorem rxBeacon (cells : List BurstCell) : Statement (.rxBeacon cells) := by
  simp [Statement, isHostCommand, isReset, burstOf, WellFormed]

theorem requestDelayRunsOut (tracker : Fin 8) : Statement (.requestDelayRunsOut tracker) := by
  simp [Statement, isHostCommand, isReset, burstOf, WellFormed]

theorem repairTimeoutRunsOut (tracker : Fin 8) : Statement (.repairTimeoutRunsOut tracker) := by
  simp [Statement, isHostCommand, isReset, burstOf, WellFormed]

theorem replayDelayRunsOut (duties : List (Fin 16)) : Statement (.replayDelayRunsOut duties) := by
  simp [Statement, isHostCommand, isReset, burstOf, WellFormed]

theorem beaconTimerRunsOut : Statement .beaconTimerRunsOut := by
  simp [Statement, isHostCommand, isReset, burstOf, WellFormed]

theorem listenTimerRunsOut : Statement .listenTimerRunsOut := by
  simp [Statement, isHostCommand, isReset, burstOf, WellFormed]

theorem silenceTimerRunsOut (station : Station) : Statement (.silenceTimerRunsOut station) := by
  simp [Statement, isHostCommand, isReset, burstOf, WellFormed]

theorem silentCellEndsSkip : Statement .silentCellEndsSkip := by
  simp [Statement, isHostCommand, isReset, burstOf, WellFormed]

end Sys2Proof.Laws.RowKind
end

