-- ==== Sys2Proof/Laws/Store.lean ====
section
/-! SUPPORT. The Retention Store's claims, one lemma each for what a claim can do: eviction, placement, lookup, and the updates
of pins. -/

namespace Sys2Proof.Machine

/-! ### Eviction (R7, R10) -/

/-- The entry evicted is the oldest without a pin, and the others keep their order. -/
theorem evictOldest_eq_some {es rest : List Entry} {v : Entry} :
    evictOldest es = some (v, rest) ↔ ∃ older younger : List Entry, es = older ++ v :: younger ∧ rest = older ++ younger ∧
      (∀ x ∈ older, x.pins.isEmpty = false) ∧ v.pins.isEmpty = true := by
  induction es generalizing rest with
  | nil => simp [evictOldest]
  | cons e es ih =>
    unfold evictOldest
    by_cases he : e.pins.isEmpty = true
    · rw [if_pos he]
      constructor
      · intro h
        injection h with h
        injection h with h1 h2
        subst h1 h2
        exact ⟨[], es, rfl, rfl, by simp, he⟩
      · rintro ⟨older, younger, h1, h2, h3, h4⟩
        cases older with
        | nil => injection h1 with h1 h5; subst h1 h2 h5; rfl
        | cons o os =>
          injection h1 with h1 h5
          exact absurd he (by rw [h1, h3 o (by simp)]; simp)
    · rw [if_neg he]
      constructor
      · intro h
        split at h
        · rename_i v' rest' hv
          injection h with h
          injection h with h1 h2
          subst h1 h2
          obtain ⟨older, younger, h3, h4, h5, h6⟩ := ih.1 hv
          refine ⟨e :: older, younger, by simp [h3], by simp [h4], ?_, h6⟩
          intro x hx
          rcases List.mem_cons.1 hx with hx | hx
          · rw [hx]; simpa using he
          · exact h5 x hx
        · exact absurd h (by simp)
      · rintro ⟨older, younger, h1, h2, h3, h4⟩
        cases older with
        | nil => injection h1 with h1 h5; exact absurd (by rw [h1]; exact h4) he
        | cons o os =>
          injection h1 with h1 h5
          have := ih.2 ⟨os, younger, h5, rfl, fun x hx => h3 x (by simp [hx]), h4⟩
          rw [this, h2, h1]
          rfl

/-- No entry is evicted exactly when every entry carries a pin. -/
theorem evictOldest_eq_none {es : List Entry} : evictOldest es = none ↔ ∀ x ∈ es, x.pins.isEmpty = false := by
  induction es with
  | nil => simp [evictOldest]
  | cons e es ih =>
    unfold evictOldest
    by_cases he : e.pins.isEmpty = true
    · rw [if_pos he]
      simp [he]
    · rw [if_neg he]
      cases hv : evictOldest es with
      | none => simp only [true_iff]; simpa [he] using ih.1 hv
      | some v =>
        constructor
        · simp
        · intro h
          exact absurd (ih.2 fun x hx => h x (by simp [hx])) (by simp [hv])

@[simp] theorem unpinned_nil : unpinned [] = 0 := rfl

@[simp] theorem unpinned_append (es fs : List Entry) : unpinned (es ++ fs) = unpinned es + unpinned fs := by
  simp [unpinned]

/-- Nothing can be evicted exactly when no HELD cell is claimable. -/
theorem evictOldest_eq_none_iff_unpinned {es : List Entry} : evictOldest es = none ↔ unpinned es = 0 := by
  rw [evictOldest_eq_none]
  simp [unpinned, List.countP_eq_zero]

/-- An eviction takes one entry, and one claimable one. -/
theorem evictOldest_counts {es rest : List Entry} {v : Entry} (h : evictOldest es = some (v, rest)) :
    rest.length + 1 = es.length ∧ unpinned rest + 1 = unpinned es := by
  obtain ⟨older, younger, h1, h2, -, h4⟩ := evictOldest_eq_some.1 h
  subst h1 h2
  constructor
  · simp; omega
  · simp [unpinned, h4]; omega

/-- The entries left by an eviction were there before it. -/
theorem evictOldest_subset {es rest : List Entry} {v : Entry} (h : evictOldest es = some (v, rest)) :
    v ∈ es ∧ ∀ x ∈ rest, x ∈ es := by
  obtain ⟨older, younger, h1, h2, -, -⟩ := evictOldest_eq_some.1 h
  subst h1 h2
  refine ⟨by simp, fun x hx => ?_⟩
  rcases List.mem_append.1 hx with hx | hx <;> simp [hx]

/-- An eviction leaves a pinned entry where it is. -/
theorem evictOldest_keeps {es rest : List Entry} {v : Entry} (h : evictOldest es = some (v, rest)) {x : Entry} (hx : x ∈ es)
    (hp : x.pins.isEmpty = false) : x ∈ rest := by
  obtain ⟨older, younger, h1, h2, -, h4⟩ := evictOldest_eq_some.1 h
  subst h1 h2
  rcases List.mem_append.1 hx with hx | hx
  · simp [hx]
  · rcases List.mem_cons.1 hx with hx | hx
    · exact absurd h4 (by rw [← hx, hp]; simp)
    · simp [hx]

/-! ### Placement (R10, R11) -/

/-- What placing an entry in a share can come to. -/
theorem placeEntry_cases (free : Nat) (es : List Entry) (e : Entry) :
    (0 < free ∧ placeEntry free es e = (.stored none, es ++ [e])) ∨
      (free = 0 ∧ ∃ v rest, evictOldest es = some (v, rest) ∧
        placeEntry free es e = (.stored (some v.key), rest ++ [e])) ∨
      (free = 0 ∧ unpinned es = 0 ∧ placeEntry free es e = (.refused, es)) := by
  by_cases hf : 0 < free
  · left; exact ⟨hf, by simp [placeEntry, hf]⟩
  · right
    have h0 : free = 0 := by omega
    cases hv : evictOldest es with
    | none => right; exact ⟨h0, evictOldest_eq_none_iff_unpinned.1 hv, by simp [placeEntry, h0, hv]⟩
    | some r => left; exact ⟨h0, r.1, r.2, by simp, by simp [placeEntry, h0, hv]⟩

/-- What a reservation can come to. -/
theorem Store.reserve_eq_some {share : Nat} {st st' : Store} (h : st.reserve share = some st') :
    st.reserved = none ∧ st'.reserved = some [] ∧ st'.peer = st.peer ∧
      ((0 < st.ownFree share ∧ st'.own = st.own) ∨
        (st.ownFree share = 0 ∧ ∃ v, evictOldest st.own = some (v, st'.own))) := by
  unfold Store.reserve at h
  split at h
  · exact absurd h (by simp)
  · rename_i hr
    have hr' : st.reserved = none := by simpa using hr
    split at h
    · rename_i hf
      injection h with h
      subst h
      exact ⟨hr', rfl, rfl, Or.inl ⟨hf, rfl⟩⟩
    · rename_i hf
      split at h
      · rename_i v rest hv
        injection h with h
        subst h
        exact ⟨hr', rfl, rfl, Or.inr ⟨by omega, v, hv⟩⟩
      · exact absurd h (by simp)

/-! ### Lookup (R4) -/

/-- What the index answers is an entry of that key. -/
theorem Store.find_eq_some {st : Store} {k : Key} {e : Entry} (h : st.find k = some e) :
    e ∈ st.own ++ st.peer ∧ e.key = k := by
  unfold Store.find at h
  exact ⟨List.mem_of_find?_eq_some h, by simpa using List.find?_some h⟩

/-- The index answers nothing exactly when no entry has the key. -/
theorem Store.find_eq_none {st : Store} {k : Key} : st.find k = none ↔ ∀ e ∈ st.own ++ st.peer, e.key ≠ k := by
  simp [Store.find, or_imp, forall_and]

theorem Store.present_iff {st : Store} {k : Key} : st.present k = true ↔ ∃ e ∈ st.own ++ st.peer, e.key = k := by
  cases h : st.find k with
  | none =>
    have := Store.find_eq_none.1 h
    simp only [Store.present, Store.lookup, h, Bool.false_eq_true, false_iff]
    rintro ⟨e, he, hk⟩
    exact this e he hk
  | some e =>
    simpa [Store.present, Store.lookup, h] using ⟨e, List.mem_append.1 (Store.find_eq_some h).1, (Store.find_eq_some h).2⟩

/-- A key is present when the index maps it. -/
theorem Store.present_eq_isSome (st : Store) (k : Key) : st.present k = (st.find k).isSome := by
  cases h : st.find k <;> simp [Store.present, Store.lookup, h]

/-- What a lookup and a read answer for a key that the index maps (R19). -/
theorem Store.lookup_of_find {st : Store} {k : Key} {e : Entry} (h : st.find k = some e) :
    st.lookup k = .present e.payload.length (st.shareOf k) e.pins ∧ st.read k = .bytes e.payload.length e.payload ∧
      st.deliverable k = e.pins.due ∧ st.heldWithoutTx k = !e.pins.tx := by
  simp [Store.lookup, Store.read, Store.deliverable, Store.heldWithoutTx, h]

/-- What a lookup and a read answer for an absent key (R19). -/
theorem Store.lookup_of_absent {st : Store} {k : Key} (h : st.find k = none) :
    st.lookup k = .absent ∧ st.read k = .absent ∧ st.deliverable k = false ∧ st.heldWithoutTx k = false := by
  simp [Store.lookup, Store.read, Store.deliverable, Store.heldWithoutTx, h]

/-- With no two entries of one key, an entry is what the index answers for its key. -/
theorem Store.find_of_mem {st : Store} (hn : ((st.own ++ st.peer).map fun e => e.key).Nodup) {e : Entry}
    (he : e ∈ st.own ++ st.peer) : st.find e.key = some e := by
  cases h : st.find e.key with
  | none => exact absurd rfl (Store.find_eq_none.1 h e he)
  | some x =>
    have hx := Store.find_eq_some h
    rw [List.inj_on_of_nodup_map hn hx.1 he hx.2]

/-! ### Updates of pins (R15 to R18) -/

/-- The index after an update that keeps keys. -/
theorem Store.find_mapEntries (st : Store) (f : Entry → Entry) (hf : ∀ e, (f e).key = e.key) (k : Key) :
    (st.mapEntries f).find k = (st.find k).map f := by
  simp only [Store.find, Store.mapEntries, ← List.map_append]
  induction st.own ++ st.peer with
  | nil => rfl
  | cons e es ih =>
    simp only [List.map_cons, List.find?_cons, hf]
    split
    · rfl
    · exact ih

@[simp] theorem Store.mapEntries_reserved (st : Store) (f : Entry → Entry) : (st.mapEntries f).reserved = st.reserved := rfl
@[simp] theorem Store.mapEntries_own (st : Store) (f : Entry → Entry) : (st.mapEntries f).own = st.own.map f := rfl
@[simp] theorem Store.mapEntries_peer (st : Store) (f : Entry → Entry) : (st.mapEntries f).peer = st.peer.map f := rfl

/-- Keys and payloads stand in their order when the pins of one key change. -/
theorem Store.mapPins_keeps (st : Store) (k : Key) (f : Pins → Pins) :
    (st.mapPins k f).own.map (fun e => (e.key, e.payload)) = st.own.map (fun e => (e.key, e.payload)) ∧
      (st.mapPins k f).peer.map (fun e => (e.key, e.payload)) = st.peer.map (fun e => (e.key, e.payload)) ∧
      (st.mapPins k f).reserved = st.reserved := by
  refine ⟨?_, ?_, rfl⟩ <;>
  · simp only [Store.mapPins, Store.mapEntries, List.map_map]
    apply List.map_congr_left
    intro e _
    by_cases h : e.key = k <;> simp [h]

/-- The index after the pins of key `k` changed. -/
theorem Store.find_mapPins (st : Store) (k : Key) (f : Pins → Pins) (k' : Key) :
    (st.mapPins k f).find k' =
      if k' = k then (st.find k').map (fun e => { e with pins := f e.pins }) else st.find k' := by
  rw [Store.mapPins, Store.find_mapEntries _ _ (by intro e; split <;> rfl)]
  cases h : st.find k' with
  | none => simp
  | some e =>
    have hk := (Store.find_eq_some h).2
    by_cases hh : k' = k <;> simp [hk, hh]

/-- Every claim on a pin is a change of one key's pins, or none at all. -/
theorem Store.pinTx_cases (st : Store) (k : Key) :
    st.pinTx k = (.absent, st) ∨ st.pinTx k = (.already, st) ∨
      st.pinTx k = (.pinned, st.mapPins k fun p => { p with tx := true }) := by
  unfold Store.pinTx
  split
  · simp
  · split <;> simp

theorem Store.hand_cases (st : Store) (k : Key) :
    st.hand k = (.absent, st) ∨ st.hand k = (.notDue, st) ∨
      st.hand k = (.handed, st.mapPins k fun p => { p with due := false, handed := true }) := by
  unfold Store.hand
  split
  · simp
  · split <;> simp

theorem Store.clearPin_cases (st : Store) (k : Key) (carried : Pins → Bool) (remove : Pins → Pins) :
    st.clearPin k carried remove = (.absent, st) ∨ st.clearPin k carried remove = (.notCarried, st) ∨
      st.clearPin k carried remove = (.cleared, st.mapPins k remove) := by
  unfold Store.clearPin
  split
  · simp
  · split <;> simp

/-- The index after a clear claim, whatever it answers, when removing a pin that is not carried changes nothing. -/
theorem Store.find_clearPin (st : Store) (k : Key) (carried : Pins → Bool) (remove : Pins → Pins)
    (h : ∀ p, carried p = false → remove p = p) (k' : Key) :
    (st.clearPin k carried remove).2.find k' =
      if k' = k then (st.find k').map (fun e => { e with pins := remove e.pins }) else st.find k' := by
  unfold Store.clearPin
  cases hf : st.find k with
  | none => by_cases hk : k' = k <;> simp [hk, hf]
  | some e =>
    dsimp only
    by_cases hc : carried e.pins = true
    · rw [if_pos hc, Store.find_mapPins]
    · rw [if_neg hc]
      by_cases hk : k' = k
      · simp [hk, hf, h e.pins (by simpa using hc)]
      · simp [hk]

/-- A release leaves no cell RESERVED and touches no entry (R14). -/
@[simp] theorem Store.release_store (st : Store) : st.release.2 = { st with reserved := none } := by
  unfold Store.release
  split
  · rename_i h; rw [← h]
  · rfl

end Sys2Proof.Machine
end

