-- ==== Sys2Proof/Laws/Runs.lean ====
section
/-! SUPPORT. What the search for absent numbers can answer (R25, R51): `State.runOf` gives the run that `RunIs` describes, and
no run exactly when no number is missing. -/

namespace Sys2Proof.Machine

/-- The first absent number of `fuel` from `n` on: there is none, or it is the one after the present ones. -/
theorem Store.firstAbsent_cases (st : Store) (o : Station) (e : Epoch) (fuel : Nat) (n : SeqNum) :
    (st.firstAbsent o e fuel n = none ∧ ∀ i, i < fuel → st.present ⟨o, e, n + BitVec.ofNat 16 i⟩ = true) ∨
      ∃ j, j < fuel ∧ st.firstAbsent o e fuel n = some (n + BitVec.ofNat 16 j) ∧
        st.present ⟨o, e, n + BitVec.ofNat 16 j⟩ = false ∧
        ∀ i, i < j → st.present ⟨o, e, n + BitVec.ofNat 16 i⟩ = true := by
  induction fuel generalizing n with
  | zero => exact .inl ⟨rfl, fun i h => absurd h (Nat.not_lt_zero i)⟩
  | succ fuel ih =>
    have next : ∀ i : Nat, n + 1 + BitVec.ofNat 16 i = n + BitVec.ofNat 16 (i + 1) := by intro i; bv_omega
    have zero : n + BitVec.ofNat 16 0 = n := by bv_omega
    by_cases h : st.present ⟨o, e, n⟩ = true
    · have all : ∀ m, (∀ i, i < m → st.present ⟨o, e, n + 1 + BitVec.ofNat 16 i⟩ = true) →
          ∀ i, i < m + 1 → st.present ⟨o, e, n + BitVec.ofNat 16 i⟩ = true := by
        intro m hm i hi
        cases i with
        | zero => rw [zero]; exact h
        | succ i => rw [← next]; exact hm i (by omega)
      simp only [Store.firstAbsent, h, if_true]
      obtain ⟨h1, h2⟩ | ⟨j, h1, h2, h3, h4⟩ := ih (n + 1)
      · exact .inl ⟨h1, all fuel h2⟩
      · exact .inr ⟨j + 1, by omega, by rw [h2, next], by rw [← next]; exact h3, all j h4⟩
    · refine .inr ⟨0, by omega, ?_, ?_, fun i hi => absurd hi (Nat.not_lt_zero i)⟩
      · rw [zero]; simp [Store.firstAbsent, h]
      · rw [zero]; simpa using h

/-- The count of absent numbers from `n` on: all of them are, and the next one is present unless `fuel` is reached. -/
theorem Store.countAbsent_spec (st : Store) (o : Station) (e : Epoch) (fuel : Nat) (n : SeqNum) :
    st.countAbsent o e fuel n ≤ fuel ∧
      (∀ i, i < st.countAbsent o e fuel n → st.present ⟨o, e, n + BitVec.ofNat 16 i⟩ = false) ∧
      (st.countAbsent o e fuel n < fuel →
        st.present ⟨o, e, n + BitVec.ofNat 16 (st.countAbsent o e fuel n)⟩ = true) := by
  induction fuel generalizing n with
  | zero => simp [Store.countAbsent]
  | succ fuel ih =>
    have next : ∀ i : Nat, n + 1 + BitVec.ofNat 16 i = n + BitVec.ofNat 16 (i + 1) := by intro i; bv_omega
    have zero : n + BitVec.ofNat 16 0 = n := by bv_omega
    by_cases h : st.present ⟨o, e, n⟩ = true
    · simp [Store.countAbsent, h]
    · obtain ⟨h1, h2, h3⟩ := ih (n + 1)
      simp only [Store.countAbsent, h]
      refine ⟨by simpa using h1, fun i hi => ?_, fun hi => ?_⟩
      · cases i with
        | zero => rw [zero]; simpa using h
        | succ i => rw [← next]; exact h2 i (by simpa using hi)
      · have h4 := h3 (by simpa using hi)
        rw [next] at h4
        simpa using h4

/-- The numbers of [base, horizon] are the `missingSpan` numbers from the base on. -/
theorem Context.inSpan_iff {c : Context} (h : (c.horizon + 1 - c.nextDue).toNat ≤ 32768) (n : SeqNum) :
    c.inSpan n ↔ ∃ i, i < c.missingSpan ∧ n = c.base + BitVec.ofNat 16 i := by
  simp only [Context.inSpan, Context.missingSpan, Context.extent, h, if_true, offset]
  generalize c.base = b
  constructor
  · rintro ⟨h1, h2⟩
    exact ⟨(n - c.nextDue).toNat - (b - c.nextDue).toNat, by omega, by bv_omega⟩
  · rintro ⟨i, hi, rfl⟩
    have : (b + BitVec.ofNat 16 i - c.nextDue).toNat = (b - c.nextDue).toNat + i := by bv_omega
    omega

theorem State.present_eq_false {s : State} {o : Station} {n : SeqNum} :
    s.store.present ⟨o, (s.ctx o).epoch, n⟩ = false ↔ ¬ s.holds o n := by
  rw [State.holds, ← Store.present_iff]
  simp

/-- Where a number of the span lies, reckoned from next-due. -/
theorem Context.offset_inSpan {c : Context} (h : (c.horizon + 1 - c.nextDue).toNat ≤ 32768) {i : Nat}
    (hi : i < c.missingSpan) :
    (c.base + BitVec.ofNat 16 i - c.nextDue).toNat = (c.base - c.nextDue).toNat + i := by
  simp only [Context.missingSpan, Context.extent, h, if_true, offset] at hi
  generalize c.base = b at *
  bv_omega

/-- Without a run no number is missing; with one it is the run of `RunIs`. -/
theorem State.runOf_cases (s : State) (o : Station) (h : ((s.ctx o).horizon + 1 - (s.ctx o).nextDue).toNat ≤ 32768) :
    (s.runOf o = none ∧ ∀ n : SeqNum, ¬ s.missing o n) ∨
      ∃ (first : SeqNum) (count : Nat), s.runOf o = some (first, count) ∧ RunIs s o first count := by
  have span := Context.inSpan_iff h
  obtain ⟨h1, h2⟩ | ⟨j, h1, h2, h3, h4⟩ := s.store.firstAbsent_cases o (s.ctx o).epoch (s.ctx o).missingSpan (s.ctx o).base
  · refine .inl ⟨by simp [State.runOf, Store.run, h1], ?_⟩
    rintro n ⟨hn, habs⟩
    obtain ⟨i, hi, rfl⟩ := (span n).mp hn
    rw [← State.present_eq_false, h2 i hi] at habs
    exact Bool.noConfusion habs
  · have hj := Context.offset_inSpan h h1
    have left : offset (s.ctx o).base ((s.ctx o).base + BitVec.ofNat 16 j) = j := by
      have : (s.ctx o).missingSpan ≤ 32768 := by
        simp only [Context.missingSpan, Context.extent, h, if_true]; omega
      simp only [offset]
      generalize (s.ctx o).base = b
      bv_omega
    have run : s.runOf o = some ((s.ctx o).base + BitVec.ofNat 16 j,
        s.store.countAbsent o (s.ctx o).epoch (min Config.maxRun ((s.ctx o).missingSpan - j))
          ((s.ctx o).base + BitVec.ofNat 16 j)) := by
      simp only [State.runOf, Store.run, h2, left]
    obtain ⟨c1, c2, c3⟩ := s.store.countAbsent_spec o (s.ctx o).epoch
      (min Config.maxRun ((s.ctx o).missingSpan - j)) ((s.ctx o).base + BitVec.ofNat 16 j)
    refine .inr ⟨_, _, run, ?_⟩
    generalize hk : s.store.countAbsent o (s.ctx o).epoch (min Config.maxRun ((s.ctx o).missingSpan - j))
      ((s.ctx o).base + BitVec.ofNat 16 j) = k at c1 c2 c3
    have step : ∀ i : Nat, (s.ctx o).base + BitVec.ofNat 16 j + BitVec.ofNat 16 i =
        (s.ctx o).base + BitVec.ofNat 16 (j + i) := by
      intro i
      generalize (s.ctx o).base = b
      bv_omega
    have miss : ∀ i : Nat, j + i < (s.ctx o).missingSpan →
        s.store.present ⟨o, (s.ctx o).epoch, (s.ctx o).base + BitVec.ofNat 16 (j + i)⟩ = false →
        s.missing o ((s.ctx o).base + BitVec.ofNat 16 (j + i)) := fun i hi hp =>
      ⟨(span _).mpr ⟨j + i, hi, rfl⟩, State.present_eq_false.mp hp⟩
    have maxRun : Config.maxRun = 8 := rfl
    rw [maxRun] at c1 c3
    have pos : 1 ≤ k := by
      by_contra hz
      have hz : k = 0 := by omega
      have h5 := c3 (by omega)
      rw [hz, step, Nat.add_zero, h3] at h5
      exact Bool.noConfusion h5
    refine ⟨by simpa using miss 0 h1 h3, fun n hn => ?_, ⟨pos, by omega⟩, fun i hi => ?_, ?_⟩
    · obtain ⟨i, hi, rfl⟩ := (span n).mp hn.1
      rw [hj, Context.offset_inSpan h hi]
      by_contra hlt
      have h5 := hn.2
      rw [← State.present_eq_false, h4 i (by omega)] at h5
      exact Bool.noConfusion h5
    · rw [step]
      exact miss i (by omega) (by rw [← step]; exact c2 i hi)
    · by_cases h8 : k = 8
      · exact .inl h8
      · by_cases hend : k < min 8 ((s.ctx o).missingSpan - j)
        · refine .inr (.inr ?_)
          have h5 := c3 hend
          by_contra hno
          rw [State.present_eq_false.mpr hno] at h5
          exact Bool.noConfusion h5
        · refine .inr (.inl ?_)
          have hm : (s.ctx o).missingSpan = j + k := by omega
          simp only [Context.missingSpan, Context.extent, h, if_true, offset] at hm
          rw [step]
          generalize (s.ctx o).base = b at *
          bv_omega

/-- A number is missing exactly when there is a run (R25, R51). -/
theorem State.runOf_isSome {s : State} {o : Station}
    (h : ((s.ctx o).horizon + 1 - (s.ctx o).nextDue).toNat ≤ 32768) :
    (s.runOf o).isSome = true ↔ ∃ n : SeqNum, s.missing o n := by
  obtain ⟨h1, h2⟩ | ⟨first, count, h1, h2⟩ := s.runOf_cases o h
  · simp [h1, h2]
  · simp only [h1, Option.isSome_some, true_iff]
    exact ⟨first, h2.missing⟩

/-- The run found is the run (R51). -/
theorem State.runIs_of_runOf {s : State} {o : Station} {first : SeqNum} {count : Nat}
    (h : ((s.ctx o).horizon + 1 - (s.ctx o).nextDue).toNat ≤ 32768) (hr : s.runOf o = some (first, count)) :
    RunIs s o first count := by
  obtain ⟨h1, _⟩ | ⟨f, k, h1, h2⟩ := s.runOf_cases o h
  · rw [h1] at hr; cases hr
  · rw [h1] at hr
    cases hr
    exact h2

end Sys2Proof.Machine
end

