-- ==== Sys2Proof/Laws/Trackers.lean ====
section
/-! SUPPORT. What the tracker operations do to the contexts: nothing but the tracker-held flags (R44). `HeldOnly s t` says so,
and each tracker operation has one lemma `<operation>_heldOnly`. -/

namespace Sys2Proof.Machine

/-- The contexts differ in their tracker-held flags alone. -/
def HeldOnly (s t : State) : Prop := ∀ o : Station, t.ctx o = { s.ctx o with trackerHeld := (t.ctx o).trackerHeld }

theorem HeldOnly.refl (s : State) : HeldOnly s s := fun _ => rfl

theorem HeldOnly.trans {s t u : State} (h : HeldOnly s t) (k : HeldOnly t u) : HeldOnly s u := by
  intro o
  have h1 := h o
  have h2 := k o
  rw [h1] at h2
  exact h2

theorem HeldOnly.of_contexts {s t : State} (h : t.contexts = s.contexts) : HeldOnly s t := by
  intro o
  rw [State.ctx_congr h]

theorem HeldOnly.foldl {α : Type} {f : State → α → State} (h : ∀ s a, HeldOnly s (f s a)) (l : List α) (s : State) :
    HeldOnly s (l.foldl f s) := by
  induction l generalizing s with
  | nil => exact HeldOnly.refl _
  | cons a l ih => exact (h s a).trans (ih (f s a))

theorem setCtx_heldOnly (s : State) (o : Station) (b : Bool) : HeldOnly s (s.setCtx o { s.ctx o with trackerHeld := b }) := by
  intro p
  rw [State.ctx_setCtx]
  split
  · rename_i h; subst h; rfl
  · rfl

theorem claim_heldOnly (s : State) (i : Fin 8) (o : Station) : HeldOnly s (s.claim i o) := by
  unfold State.claim
  split
  · exact HeldOnly.refl _
  · exact setCtx_heldOnly _ _ _

theorem offer_heldOnly (s : State) (i : Fin 8) : HeldOnly s (s.offer i) := by
  unfold State.offer
  split
  · exact claim_heldOnly _ _ _
  · exact HeldOnly.refl _

theorem withdraw_heldOnly (s : State) (d : DutyRef) : HeldOnly s (s.withdraw d) :=
  .of_contexts ((withdraw_only s d) .contexts (by decide))

theorem freeTracker_heldOnly (s : State) (i : Fin 8) : HeldOnly s (s.freeTracker i) := by
  unfold State.freeTracker
  split
  · exact HeldOnly.refl _
  · have h : HeldOnly s
        (((((s.setTracker i
          { s.tracker i with state := .free, timer := .stopped, marker := .none, lastOrigin := (s.tracker i).origin }).dropRequest
            i).withdraw (.gapreq i)).clearHeld (s.tracker i).origin)) := by
      refine HeldOnly.trans ?_ (setCtx_heldOnly _ _ _)
      refine HeldOnly.trans ?_ (withdraw_heldOnly _ _)
      exact .of_contexts rfl
    dsimp only
    split
    · exact h.trans (offer_heldOnly _ _)
    · exact h

theorem claimIfWaiting_heldOnly (s : State) (o : Station) : HeldOnly s (s.claimIfWaiting o) := by
  unfold State.claimIfWaiting
  split
  · split
    · exact claim_heldOnly _ _ _
    · exact HeldOnly.refl _
  · exact HeldOnly.refl _

theorem recompute_heldOnly (s : State) (i : Fin 8) : HeldOnly s (s.recompute i) := by
  unfold State.recompute
  dsimp only
  split
  · exact freeTracker_heldOnly _ _
  · split
    · exact .of_contexts rfl
    · split
      · split <;> exact .of_contexts rfl
      · exact .of_contexts rfl

theorem changeNotice_heldOnly (s : State) (o : Station) : HeldOnly s (s.changeNotice o) := by
  unfold State.changeNotice
  split
  · exact recompute_heldOnly _ _
  · exact claimIfWaiting_heldOnly _ _

theorem restartNotice_heldOnly (s : State) (o : Station) : HeldOnly s (s.restartNotice o) := by
  unfold State.restartNotice
  split
  · exact freeTracker_heldOnly _ _
  · exact HeldOnly.refl _

theorem offerAll_heldOnly (s : State) : HeldOnly s s.offerAll := HeldOnly.foldl offer_heldOnly _ _

theorem freeAllTrackers_heldOnly (s : State) : HeldOnly s s.freeAllTrackers := HeldOnly.foldl freeTracker_heldOnly _ _

theorem applyStore_heldOnly (s : State) (st : Store) : HeldOnly s (s.applyStore st) :=
  .of_contexts ((applyStore_only s st) .contexts (by decide))

theorem dropDuties_heldOnly (s : State) : HeldOnly s s.dropDuties :=
  .of_contexts ((dropDuties_only s) .contexts (by decide))

theorem quitActive_heldOnly (s : State) : HeldOnly s s.quitActive :=
  ((HeldOnly.of_contexts (t := s.withSched s.sched.leaveActive) rfl).trans (dropDuties_heldOnly _)).trans
    (freeAllTrackers_heldOnly _)

end Sys2Proof.Machine
end

