-- ==== Sys2Proof/Tests/Slice0.lean ====
section
/-! SUPPORT. Tests: the checks of WellFormed refuse ill-formed commands; the worked examples and tables of the manual, one step
each on a small state; and for each statement of Certificates/Slice0/Obligations.lean that has hypotheses, a state and operands
that meet them (theorems `witness_<statement>`). -/

namespace Sys2Proof.Tests

set_option Elab.async false

open Sys2Proof Sys2Proof.Machine

/-! ### States for the tests -/

/-- The state a command leaves. -/
def next (c : Instr) (s : State) : State :=
  match exec c s with
  | .next t => t
  | .fault _ => s
  | .refused _ => s

/-- Station `n` in SETUP, RATE 3, with MRST released. -/
def setupAt (n : Station) : State :=
  { State.reset with station := StationControl.atReset n 3 false, contexts := contextsAtReset n 0 }

/-- Station `n` ACTIVE with the setup defaults, own epoch `e`, the line idle and nothing stored. -/
def activeAt (n : Station) (e : Epoch) : State :=
  { setupAt n with
    contexts := contextsAtReset n e
    submission := Submission.atReset e
    station := { StationControl.atReset n 3 false with state := .active }
    sched := { Scheduler.atReset with beaconTimer := some 4096 }
    trunk := { lineIdle := true, burst := false, rx := RxPath.at .waiting, tx := none } }

/-- A station in state `x`, otherwise as `s`. -/
def inState (x : StationState) (s : State) : State := s.withStation { s.station with state := x }

/-- A frame on the line. -/
def burst (f : Frame) : List BurstCell := lineCells f.bytes

/-- A payload of one byte. -/
def one : List Byte := [0xAA#8]

/-- An entry of one byte. -/
def entry (o : Station) (e : Epoch) (n : SeqNum) (due handed tx : Bool) : Entry :=
  { key := { origin := o, epoch := e, seq := n }, payload := one, pins := { due := due, handed := handed, tx := tx } }

/-- A synchronised context. -/
def context (x : ContextState) (e : Epoch) (due horizon floor : SeqNum) : Context :=
  { Context.unsynced with state := x, epoch := e, nextDue := due, horizon := horizon, lossFloor := floor }

/-- Station 12 at work: two gaps under repair, two duties, its own messages queued, one being submitted, and records that wait
to be read; a frame that fills part of a gap is its next command. -/
def busy : State :=
  let s := activeAt 12 5
  { s with
    station := { s.station with setup := { s.setup with loopback := true } }
    store :=
      { own := [entry 12 5 1 false false true, entry 12 5 2 false true false, entry 12 5 3 true false false,
          entry 12 5 4 true false true, entry 12 5 5 true false true]
        peer := [entry 7 9 90 false false true, entry 7 9 101 true false false, entry 7 9 104 true false false,
          entry 20 1 51 true false false, entry 20 1 52 true false false]
        reserved := some [0x01#8, 0x02#8] }
    contexts := ((s.contexts.set 12 (context .own 5 3 3 3)).set 7
      { context .gapped 9 100 104 101 with trackerHeld := true }).set 20
      { context .gapped 1 50 52 50 with trackerHeld := true }
    pool :=
      { trackers := (s.pool.trackers.set 0
          { state := .wait, origin := 7, epoch := 9, runFirst := 102, runCount := 2, attempts := 1,
            timer := .repairTimeout 512, marker := .none, asked := some (102, 2), lastOrigin := 7 }).set 1
          { state := .delay, origin := 20, epoch := 1, runFirst := 50, runCount := 1, attempts := 0, timer := .stopped,
            marker := .pending, asked := none, lastOrigin := 20 }
        requests := [{ tracker := 1, count := 0 }] }
    duties :=
      { slots := (s.duties.slots.set 2
          (some { key := { origin := 7, epoch := 9, seq := 90 }, state := .delay, timer := some 18, count := 0 })).set 5
          (some { key := { origin := 12, epoch := 5, seq := 1 }, state := .eligible, timer := none, count := 2 })
        eligible := [5] }
    delivery :=
      { queue := [.message { origin := 12, epoch := 5, seq := 2 }, .lost 3 2 10 4, .restart 4 1 2 9]
        readPos := 0
        lastServed := 12 }
    submission :=
      { asm := .assembling, length := 3, expected := 2, taken := 1, ownEpoch := 5, nextSeq := 6, nextUntx := 4
        queue := [{ seq := 4, count := 0, marker := .waiting }, { seq := 5, count := 0, marker := .waiting }] }
    pending := [.rxData (burst (.data 7 9 102 one))] }

/-- `s` with a frame of duty `d` on the wire, its collision count `n`. -/
def sending (d : DutyRef) (n : Nat) (s : State) : State :=
  (s.withSched { s.sched with state := .sending, commitment := some { duty := d, count := n } }).withTrunk
    { lineIdle := false, burst := true, rx := RxPath.at .own, tx := some s.beaconFrame.bytes }

/-- `busy` with the duty 5, the request of tracker 1 or the DATA head on the wire. -/
def sendingReplay (n : Nat) : State :=
  sending (.replay 5) n (busy.setDuty 5
    (some { key := { origin := 12, epoch := 5, seq := 1 }, state := .sending, timer := none, count := n }))
def sendingGapreq (n : Nat) : State :=
  sending (.gapreq 1) n ((busy.setTracker 1
    { busy.tracker 1 with marker := .onWire, asked := some (50, 1) }).setRequests [{ tracker := 1, count := n }])
def sendingData (n : Nat) : State :=
  sending .data n (busy.setDataQueue
    [{ seq := 4, count := n, marker := .sending }, { seq := 5, count := 0, marker := .waiting }])
def sendingBeacon (n : Nat) : State :=
  sending .beacon n (busy.withSched { busy.sched with beaconDuty := true, beaconCount := n })

/-- The cells of the frame that `s` has in transmission, as they are read back without mismatch. -/
def readAlike (s : State) : List (Option BurstCell) :=
  match s.trunk.tx with
  | some bytes => (lineCells bytes).map some
  | none => []

/-- After the frame end, and after a collision in the first preamble cell. -/
def ended (s : State) : State := next (.frameEnd (readAlike s)) s
def collided (s : State) : State := next (.collision [some (.data false)]) s

/-- `busy` in HOLDOFF with a duty committed. -/
def holding (d : DutyRef) : State :=
  busy.withSched
    { busy.sched with
      state := .holdoff, commitment := some { duty := d, count := 0 }, holdoff := some 9, beaconDuty := true }

/-- Station 12 in SETUP with a full and small store: one own cell and one peer cell would be FREE without these entries. -/
def oneOwn (p : Bool) : Store := { own := [entry 12 5 1 false false p], peer := [], reserved := none }
def onePeer (p : Bool) : Store := { own := [], peer := [entry 7 9 1 false false p], reserved := none }

/-! ### WellFormed refuses -/

theorem test_wf_fragment_too_short : WellFormed (.fragment (List.replicate 15 .violation)) = false := by decide +kernel
theorem test_wf_fragment : WellFormed (.fragment (List.replicate 16 .violation)) = true := by decide +kernel
theorem test_wf_frameEnd_cut_off : WellFormed (.frameEnd ((burst (.beacon 3 1 0)).dropLast.map some)) = false := by
  decide +kernel
theorem test_wf_frameEnd_silent_cell : WellFormed (.frameEnd ((burst (.beacon 3 1 0)).map some ++ [none])) = false := by
  decide +kernel
theorem test_wf_frameEnd : WellFormed (.frameEnd ((burst (.beacon 3 1 0)).map some)) = true := by decide +kernel
theorem test_wf_collision_without_a_cell : WellFormed (.collision []) = false := rfl
theorem test_wf_frameError_good_frame : WellFormed (.frameError (burst (.beacon 3 1 0))) = false := by decide +kernel
theorem test_wf_frameError : WellFormed (.frameError ((burst (.beacon 3 1 0)).dropLast)) = true := by decide +kernel
theorem test_wf_clash_damaged : WellFormed (.clash ((burst (.beacon 3 1 0)).dropLast)) = false := by decide +kernel
theorem test_wf_rxData_of_a_beacon : WellFormed (.rxData (burst (.beacon 3 1 0))) = false := by decide +kernel
theorem test_wf_rxReplay_of_a_data : WellFormed (.rxReplay (burst (.data 3 1 0 one))) = false := by decide +kernel
theorem test_wf_rxGapreq_count_nine : WellFormed (.rxGapreq (burst (.gapreq 3 4 1 0 9))) = false := by decide +kernel
theorem test_wf_rxBeacon_of_a_gapreq : WellFormed (.rxBeacon (burst (.gapreq 3 4 1 0 8))) = false := by decide +kernel
theorem test_wf_duties_none : WellFormed (.replayDelayRunsOut []) = false := by decide +kernel
theorem test_wf_duties_twice : WellFormed (.replayDelayRunsOut [3, 3]) = false := by decide +kernel

/-! ### The invariants' hypotheses are met by a station at work -/

theorem busy_mode : ModeSound busy := by
  constructor <;> decide +kernel

theorem busy_setup : SetupSound busy := by
  constructor <;> decide +kernel

theorem busy_store : StoreSound busy := by
  constructor <;> decide +kernel

theorem busy_contexts : ContextsSound busy where
  ownState := by decide +kernel
  unsynced := by decide +kernel
  bounded := by
    intro o h
    have all : ∀ o : Station, (busy.ctx o).isSynced = true →
        offset (busy.ctx o).nextDue (busy.ctx o).lossFloor ≤ 32767 ∧
          offset (busy.ctx o).nextDue ((busy.ctx o).horizon + 1) ≤ 32768 ∧
          offset (busy.ctx o).nextDue (busy.ctx o).lossFloor ≤ offset (busy.ctx o).nextDue ((busy.ctx o).horizon + 1) ∧
          offset (busy.ctx o).nextDue ((busy.ctx o).horizon + 1) ≤
            offset (busy.ctx o).nextDue (busy.ctx o).lossFloor + 64 := by decide +kernel
    obtain ⟨h1, h2, h3, h4⟩ := all o h
    exact ⟨h1, h2, h3, h4⟩
  due := by decide +kernel

/-- The gaps are decided when the search for absent numbers says so (`State.runOf_isSome`). -/
theorem gaps_of {s : State} (hc : ContextsSound s)
    (h : ∀ o : Station, (s.ctx o).isSynced = true → ((s.ctx o).state = .gapped ↔ (s.runOf o).isSome = true)) :
    GapsDecided s := fun o ho => by
  rw [← State.runOf_isSome (hc.bounded o ho).horizon]
  exact h o ho

theorem busy_gaps : GapsDecided busy := gaps_of busy_contexts (by decide +kernel)

theorem busy_runs : RunsCurrent busy where
  epoch := by decide +kernel
  synced := by decide +kernel
  run i hi := by
    have all : ∀ i : Fin 8, (busy.tracker i).state ≠ .free → (busy.ctx (busy.tracker i).origin).isSynced = true ∧
        busy.runOf (busy.tracker i).origin = some ((busy.tracker i).runFirst, (busy.tracker i).runCount) := by
      decide +kernel
    exact State.runIs_of_runOf (busy_contexts.bounded _ (all i hi).1).horizon (all i hi).2
  served := by decide +kernel

theorem busy_trackers : TrackersSound busy where
  consistent := by
    intro t
    fin_cases t
    · exact ⟨rfl, 512, rfl⟩
    · exact Or.inr ⟨by decide +kernel, rfl⟩
    all_goals exact ⟨rfl, rfl⟩
  single := by decide +kernel
  held := by decide +kernel
  requestsNodup := by decide +kernel
  requests := by decide +kernel
  activeOnly := by decide +kernel

/-- The soundness of the trackers rests on pool, contexts and station state alone. -/
theorem trackers_of_pool {s t : State} (h : TrackersSound s) (h1 : t.pool = s.pool) (h2 : t.contexts = s.contexts)
    (h3 : t.station.state = s.station.state) : TrackersSound t where
  consistent i := by rw [State.tracker, h1]; exact h.consistent i
  single i j := by rw [State.tracker, State.tracker, h1]; exact h.single i j
  held o := by simp only [State.ctx, State.tracker, h1, h2]; exact h.held o
  requestsNodup := by rw [h1]; exact h.requestsNodup
  requests i := by rw [State.tracker, h1]; exact h.requests i
  activeOnly := by rw [h3]; simp only [State.tracker, h1]; exact h.activeOnly

theorem busy_submission : SubmissionSound busy := by
  constructor <;> decide +kernel

theorem busy_duties : DutiesSound busy where
  timers := by
    intro d
    show ∀ x ∈ busy.duty d, _
    revert d
    decide +kernel
  eligibleNodup := by decide +kernel
  eligible := by
    show ∀ d : Fin 16, d ∈ busy.duties.eligible ↔ ∃ x, x ∈ busy.duty d ∧ x.state ≠ .delay
    decide +kernel
  single := by
    intro d e x y
    show x ∈ busy.duty d → y ∈ busy.duty e → _
    revert d e x y
    have h : ∀ d e : Fin 16, ∀ x ∈ busy.duty d, ∀ y ∈ busy.duty e, x.key = y.key → d = e := by decide +kernel
    exact fun d e x y hx hy => h d e x hx y hy
  pinned := by
    intro d
    show ∀ x ∈ busy.duty d, ∃ e ∈ busy.store.own ++ busy.store.peer, e.key = x.key ∧ e.pins.tx = true
    revert d
    decide +kernel
  queuePinned := by
    show ∀ x ∈ busy.submission.queue, ∃ e ∈ busy.store.own ++ busy.store.peer,
      e.key = busy.ownKey x.seq ∧ e.pins.tx = true
    decide +kernel
  apart := by
    intro d
    show ∀ x ∈ busy.duty d, _
    revert d
    decide +kernel
  activeOnly := by decide +kernel

theorem busy_own : OwnContextSound busy := by
  constructor <;> decide +kernel

theorem busy_delivery : DeliverySound busy := by
  constructor <;> decide +kernel

theorem busy_payloads : PayloadsSound busy where
  entries := by decide +kernel
  assembling := by
    intro h
    refine ⟨by decide +kernel, by decide +kernel, by decide +kernel, by decide +kernel, ?_⟩
    show ∀ bytes ∈ busy.store.reserved, _
    decide +kernel

theorem wire_of (s : State)
    (h1 : ∀ d : Fin 16, ∀ x ∈ s.duty d, x.state = .sending →
      s.sched.state = .sending ∧ s.sched.commitment.map (fun c => c.duty) = some (.replay d))
    (h2 : ∀ i : Fin 8, (s.tracker i).marker = .onWire →
      s.sched.state = .sending ∧ s.sched.commitment.map (fun c => c.duty) = some (.gapreq i))
    (h3 : ∀ x ∈ s.submission.queue, x.marker = .sending →
      s.sched.state = .sending ∧ s.sched.commitment.map (fun c => c.duty) = some .data)
    (h4 : s.sched.state = .holdoff → (∀ d : Fin 16, s.sched.commitment.map (fun c => c.duty) = some (.replay d) →
        (s.duty d).map (fun x => x.state) = some .eligible) ∧
      (∀ i : Fin 8, s.sched.commitment.map (fun c => c.duty) = some (.gapreq i) → (s.tracker i).marker = .pending) ∧
      (s.sched.commitment.map (fun c => c.duty) = some .data →
        s.submission.queue.head?.map (fun h => h.marker) = some .waiting) ∧
      (s.sched.commitment.map (fun c => c.duty) = some .beacon → s.sched.beaconDuty = true)) : WireSound s :=
  ⟨fun d x hx => h1 d x hx, h2, h3, fun h => (h4 h).1, fun h => (h4 h).2.1, fun h => (h4 h).2.2.1,
    fun h => (h4 h).2.2.2⟩

theorem busy_wire : WireSound busy := by
  apply wire_of <;> decide +kernel

theorem busy_steps : ∃ t : State, step busy = .next t := ⟨_, rfl⟩

theorem witness_ModesStayTogether : (∃ t : State, step busy = .next t) ∧ ModeSound busy := ⟨busy_steps, busy_mode⟩
theorem witness_SetupStaysInRange : (∃ t : State, step busy = .next t) ∧ SetupSound busy := ⟨busy_steps, busy_setup⟩
theorem witness_StoreStaysSound : (∃ t : State, step busy = .next t) ∧ ModeSound busy ∧ StoreSound busy :=
  ⟨busy_steps, busy_mode, busy_store⟩
theorem witness_ContextsStayBounded :
    (∃ t : State, step busy = .next t) ∧ ModeSound busy ∧ StoreSound busy ∧ ContextsSound busy :=
  ⟨busy_steps, busy_mode, busy_store, busy_contexts⟩
theorem witness_GapsStayDecided :
    (∃ t : State, step busy = .next t) ∧ ModeSound busy ∧ StoreSound busy ∧ ContextsSound busy ∧ GapsDecided busy :=
  ⟨busy_steps, busy_mode, busy_store, busy_contexts, busy_gaps⟩
theorem witness_TrackersStaySound : (∃ t : State, step busy = .next t) ∧ TrackersSound busy := ⟨busy_steps, busy_trackers⟩
theorem witness_RunsStayCurrent : (∃ t : State, step busy = .next t) ∧ ModeSound busy ∧ StoreSound busy ∧
    ContextsSound busy ∧ GapsDecided busy ∧ TrackersSound busy ∧ RunsCurrent busy :=
  ⟨busy_steps, busy_mode, busy_store, busy_contexts, busy_gaps, busy_trackers, busy_runs⟩
theorem witness_SubmissionStaysSound :
    (∃ t : State, step busy = .next t) ∧ ModeSound busy ∧ StoreSound busy ∧ SubmissionSound busy :=
  ⟨busy_steps, busy_mode, busy_store, busy_submission⟩
theorem witness_DutiesStaySound : (∃ t : State, step busy = .next t) ∧ ModeSound busy ∧ StoreSound busy ∧
    SubmissionSound busy ∧ DutiesSound busy := ⟨busy_steps, busy_mode, busy_store, busy_submission, busy_duties⟩
theorem witness_OwnContextStaysSound : (∃ t : State, step busy = .next t) ∧ ModeSound busy ∧ StoreSound busy ∧
    SubmissionSound busy ∧ OwnContextSound busy := ⟨busy_steps, busy_mode, busy_store, busy_submission, busy_own⟩
theorem witness_DeliveryStaysSound : (∃ t : State, step busy = .next t) ∧ ModeSound busy ∧ StoreSound busy ∧
    ContextsSound busy ∧ SubmissionSound busy ∧ OwnContextSound busy ∧ DeliverySound busy :=
  ⟨busy_steps, busy_mode, busy_store, busy_contexts, busy_submission, busy_own, busy_delivery⟩
theorem witness_PayloadsStaySound :
    (∃ t : State, step busy = .next t) ∧ ModeSound busy ∧ SubmissionSound busy ∧ PayloadsSound busy :=
  ⟨busy_steps, busy_mode, busy_submission, busy_payloads⟩
/-- With a frame on the wire, at its end; and with a request committed, at a heard GAPREQ that suppresses it. -/
theorem witness_WireStaysSound :
    (∃ s : State, s = (sendingReplay 2).withPending [.frameEnd (readAlike (sendingReplay 2))] ∧
      (∃ t : State, step s = .next t) ∧ ModeSound s ∧ TrackersSound s ∧ SubmissionSound s ∧ WireSound s) ∧
    ∃ s : State, s = (holding (.gapreq 1)).withPending [.rxGapreq (burst (.gapreq 7 20 1 50 1))] ∧
      (∃ t : State, step s = .next t) ∧ ModeSound s ∧ TrackersSound s ∧ SubmissionSound s ∧ WireSound s := by
  constructor
  · refine ⟨_, rfl, ⟨_, rfl⟩, by constructor <;> decide +kernel, trackers_of_pool busy_trackers rfl rfl rfl, ?_, ?_⟩
    · constructor <;> decide +kernel
    · apply wire_of <;> decide +kernel
  · refine ⟨_, rfl, ⟨_, rfl⟩, by constructor <;> decide +kernel, trackers_of_pool busy_trackers rfl rfl rfl, ?_, ?_⟩
    · constructor <;> decide +kernel
    · apply wire_of <;> decide +kernel

/-! ### The manual's examples and tables, one step each -/

/-- The words in the response buffer. -/
def answer (s : State) : List Word := s.control.response

/-- 11.4: "With STN 12 and RATE 3 the first word reads 0x060C", and words 2 to 15 as they stand there. -/
theorem test_status_after_master_reset : answer (next .status (setupAt 12)) =
    [0x010F, 0x060C, 0x0080, 0x0810, 0x3200, 0x1000, 0x2000, 0x0808, 0, 0, 0, 0x0080, 0x0080, 0x0380, 0x0380, 0] := by
  decide +kernel

theorem test_mrstRelease_samples_straps : (next (.mrstRelease 12 3) State.reset).station.stn = 12 := by decide +kernel
theorem test_mrstRelease_own_context : ((next (.mrstRelease 12 3) State.reset).ctx 12).state = .own := by decide +kernel
theorem test_masterReset_purges : (next .masterReset busy).store = Store.purged := by decide +kernel
theorem test_masterReset_setup : (next .masterReset busy).setup.loopback = false := by decide +kernel
/-- Table 9.1: a partial reset gives READY, and the own epoch rises by one (R162). -/
theorem test_partialReset_ready : (next .partialReset busy).station.state = .ready := by decide +kernel
theorem test_partialReset_epoch : (next .partialReset busy).submission.ownEpoch = 6 := by decide +kernel

/-- 6.8: word 0 with value 5 reserves a cell and sets the expected words to 3. -/
theorem test_dataWord_length_five : (next (.dataWord 5 false) (activeAt 5 2)).submission.expected = 3 := by decide +kernel
/-- 6.8: the low byte of the last payload word is dropped, the length being odd; the message is held with TX and DUE. -/
theorem test_dataWord_completes : (next (.dataWord 0x03FF true) busy).store.own.getLast? =
    some { key := { origin := 12, epoch := 5, seq := 6 }, payload := [1, 2, 3],
           pins := { due := true, handed := false, tx := true } } := by decide +kernel

/-- R175, Table 11.3: a count byte that is not the command's makes it malformed. -/
theorem test_controlWord_malformed : answer (next (.controlWord 0x0201 true) (setupAt 12)) = [0x0600] := by decide +kernel
theorem test_controlWord_collects : (next (.controlWord 0x0102 false) (setupAt 12)).control.parser = .collecting .set [] := by
  decide +kernel
/-- 9.9: SET LISTEN_PERIOD 100 is answered REFUSED_VALUE, identifier 13 REFUSED_FIELD. -/
theorem test_set_refusedValue : answer (next (.set 7 100) (setupAt 12)) = [0x0400] := by decide +kernel
theorem test_set_refusedField : answer (next (.set 13 0) (setupAt 12)) = [0x0300] := by decide +kernel
/-- 9.9: JOIN from SETUP gives LISTENING with the listen timer started, and the path on. -/
theorem test_join_listens : (next .join (setupAt 12)).station.listenTimer = some 8192 := by decide +kernel
theorem test_join_path : (next .join (setupAt 12)).trunk.rx.path = .waiting := by decide +kernel
theorem test_leave_ready : (next .leave busy).station.state = .ready := by decide +kernel
theorem test_leave_leaving : (next .leave (sendingData 3)).station.state = .leaving := by decide +kernel
theorem test_recover_listens : (next .recover (inState .muted busy)).station.state = .listening := by decide +kernel
theorem test_recover_refused : answer (next .recover busy) = [0x0200] := by decide +kernel
/-- Table 11.7 on the context of the gap of origin 7: GAPPED 2, tracker held bit 8. -/
theorem test_readContext_words :
    answer (next (.readContext 7) busy) = [0x0106, 0x0102, 0x0900, 100, 104, 101, 0] := by decide +kernel
theorem test_readContext_refused : answer (next (.readContext 32) busy) = [0x0400] := by decide +kernel
theorem test_readCounters_words : (answer (next .readCounters (busy.count .rxError))).take 3 = [0x010A, 0, 1] := by
  decide +kernel
theorem test_clearCounters : (next .clearCounters (busy.count .rxError)).counters.rxError = 0 := by decide +kernel

/-- 10.7: LOSS and RX_ERROR set, all but ABANDON, MUTED and CLASH masked, those at high priority. -/
def misuse : State :=
  ((busy.raise .loss).raise .rxError).withEvents
    { ((busy.raise .loss).raise .rxError).events with mask := 0x7C7#11, priority := 0x038#11 }
theorem test_readEvents_words : answer (next .readEvents misuse) = [0x0103, 0x0401, 0x07C7, 0x0038] := by decide +kernel
theorem test_alerts_masked : misuse.alertHi = false ∧ (misuse.raise .abandon).alertHi = true := by decide +kernel
theorem test_ackEvents_clears : (next (.ackEvents 0x0501) misuse).events.flags = 0 := by decide +kernel
theorem test_setEventMask_ignores_high_bits : (next (.setEventMask 0xF801) busy).events.mask = 1 := by decide +kernel
theorem test_setEventPriority_bit : (next (.setEventPriority 0x0400) busy).events.priority = 0x400#11 := by decide +kernel
/-- Table 10.2, R187: the discarded record's first word; kind 1 and origin 12. -/
theorem test_discardHead_word : answer (next .discardHead busy) = [0x0101, 0x010C] := by decide +kernel
theorem test_discardHead_empty : answer (next .discardHead (activeAt 12 5)) = [0x0500] := by decide +kernel

/-- 11.2: the records of the example. -/
def example112 : Store :=
  { own := [], reserved := none
    peer := [{ key := { origin := 3, epoch := 5, seq := 41 }, payload := [0x41, 0x42, 0x43], pins := Pins.none }] }
theorem test_record_message : Record.words example112 (.message { origin := 3, epoch := 5, seq := 41 }) =
    [0x0103, 0x0503, 0x0029, 0x4142, 0x4300] := by decide +kernel
theorem test_record_lost : Record.words example112 (.lost 7 4 202 1) = [0x0207, 0x0004, 0x00CA, 0x0001] := by decide +kernel
theorem test_deliveryTake_first : (next .deliveryTake busy).out = { rd := 0x010C, rlast := false } := by decide +kernel
theorem test_deliveryTake_empty : (next .deliveryTake (activeAt 12 5)).isRaised .portMisuse = true := by decide +kernel
theorem test_responseTake_last : (next .responseTake (next .join (setupAt 12))).out = { rd := 0x0100, rlast := true } := by
  decide +kernel
theorem test_responseTake_empty : (next .responseTake busy).out = { rd := 0, rlast := false } := by decide +kernel
/-- R93, R95: from context 12 upward, context 7 is first; 100 lies before the floor and is absent. -/
theorem test_deliveryTurn_lost : (next .deliveryTurn busy).delivery.queue.getLast? = some (.lost 7 9 100 1) := by
  decide +kernel
theorem test_deliveryTurn_next_due : ((next .deliveryTurn busy).ctx 7).nextDue = 101 := by decide +kernel

/-- Table 11.1: the body of a BEACON of station 4, epoch 1, next-seq 0x0203. -/
theorem test_frame_bytes : (Frame.beacon 4 1 0x0203).body = [0x34, 0x04, 0x01, 0x02, 0x03] := by decide +kernel
/-- R148: the check of one byte of zeros, worked out by hand from the generator and the initial value. -/
theorem test_check_of_one_zero_byte : frameCheck [0x00#8] = 0xE1F0#16 := by decide +kernel
/-- 8.7: cell 29 is the first that differs between DATA frames of stations 4 and 9; cells 1 to 28 are alike. -/
theorem test_lockstep_cells : (burst (.data 4 1 60 one)).take 28 = (burst (.data 9 3 200 one)).take 28 ∧
    (burst (.data 4 1 60 one))[28]? ≠ (burst (.data 9 3 200 one))[28]? := by decide +kernel
/-- 8.7: station 17 at cell 45. -/
theorem test_fragment_at_cell_45 : (next (.fragment ((burst (.data 4 1 60 one)).take 29 ++ jam)) (activeAt 17 0)).trunk.rx =
    RxPath.at .skip := by decide +kernel
theorem test_silent_cell_ends_skip :
    (next .silentCellEndsSkip (next (.fragment jam) (activeAt 17 0))).trunk.rx = RxPath.at .waiting := by decide +kernel
theorem test_lineActivity_hunts : (next .lineActivity busy).trunk.rx.path = .hunt := by decide +kernel
theorem test_lineActivity_defers : (next .lineActivity (holding .data)).sched.commitment = none := by decide +kernel
theorem test_lineIdle : (next .lineIdle (sendingData 0)).trunk.lineIdle = true := by decide +kernel
/-- 8.7: a burst that ends with a byte partly taken is a frame error. -/
theorem test_frameError_counted :
    (next (.frameError ((burst (.data 9 3 200 one)).take 84)) (activeAt 17 0)).counters.rxError = 1 := by decide +kernel
theorem test_frameError_restarts_listening :
    (next (.frameError [.data true]) (inState .listening (activeAt 12 4))).station.listenTimer = some 8192 := by decide +kernel
theorem test_clash_mutes : (next (.clash (burst (.beacon 12 1 0))) busy).station.muteReason = some .clash := by decide +kernel
theorem test_clash_listening :
    (next (.clash (burst (.beacon 12 1 0))) (inState .listening busy)).station.state = .listening := by decide +kernel

/-- 7.7: the hold-offs of stations 4, 9 and 17. -/
theorem test_holdoffs : holdoffCells 4 { duty := .data, count := 1 } = 73 ∧ holdoffCells 9 { duty := .data, count := 0 } = 73 ∧
    holdoffCells 17 { duty := .gapreq 2, count := 0 } = 49 := by decide +kernel
/-- R126: the replay duty, of the first class, is committed; with the DATA flag alone set, DATA is. -/
theorem test_selection_default : (next .selectionCommit busy).sched.commitment = some { duty := .replay 5, count := 2 } := by
  decide +kernel
theorem test_selection_data_first :
    (next .selectionCommit (busy.withStation
      { busy.station with
        setup :=
          { busy.setup with classPriority := { replay := false, gapreq := false, data := true, beacon := false } } })).sched.holdoff =
      some 76 := by decide +kernel
/-- Table 7.6: the DATA frame of the head. -/
theorem test_holdoff_sends : (next .holdoffRunsOut (holding .data)).trunk.tx = some (Frame.data 12 5 4 one).bytes := by
  decide +kernel
/-- 6.8: the head SENT leaves the queue, and the own horizon becomes its number. -/
theorem test_frameEnd_horizon : ((ended (sendingData 1)).ctx 12).horizon = 4 := by decide +kernel
theorem test_frameEnd_request : ((ended (sendingGapreq 0)).tracker 1).timer = .repairTimeout 512 := by decide +kernel
theorem test_collision_raises_count : (collided (sendingData 0)).submission.queue.head? =
    some { seq := 4, count := 1, marker := .waiting } := by decide +kernel
theorem test_sixteenth_collision_abandons : (collided (sendingData 15)).counters.abandons = 1 := by decide +kernel
/-- R150: a silent cell in place of the last check cell is a collision; without that cell nothing is decided yet. -/
theorem test_collision_in_last_cell :
    (next (.collision ((readAlike (sendingData 0)).dropLast ++ [none])) (sendingData 0)).sched.state = .jamming := by
  decide +kernel
theorem test_frame_not_ended :
    (next (.frameEnd (readAlike (sendingData 0)).dropLast) (sendingData 0)).sched.state = .sending := by decide +kernel
theorem test_jamEnd : (next .jamEnd (collided (sendingData 0))).sched.state = .idle := by decide +kernel

/-- 2.6: DATA 270 at next-due 200, horizon 205. -/
def example26 : State :=
  let s := activeAt 12 0
  { s with
    contexts := s.contexts.set 7 (context .gapped 4 200 205 200)
    store :=
      { s.store with
        peer := [entry 7 4 200 true false false, entry 7 4 201 true false false, entry 7 4 203 true false false,
          entry 7 4 204 true false false, entry 7 4 205 true false false] } }
theorem test_far_ahead :
    ((next (.rxData (burst (.data 7 4 270 one))) example26).ctx 7).place = (4, 200, 270, 207) := by decide +kernel
theorem test_far_ahead_run :
    (next (.rxData (burst (.data 7 4 270 one))) example26).runOf 7 = some (207, 8) := by decide +kernel
/-- 2.10: BEACON 11 with next-seq 0, a restart of count 4 pending. -/
theorem test_beacon_restart :
    let s := (activeAt 12 0).setCtx 3
      { context .gapped 10 0 2 0 with restartPending := true, restartOldEpoch := 9, restartCount := 4 }
    (next (.rxBeacon (burst (.beacon 3 11 0))) s).ctx 3 =
      { context .steady 11 0 65535 0 with
        restartPending := true, restartOldEpoch := 9, restartCount := 7, heardSinceReset := true,
        silenceTimer := some 16384 } := by decide +kernel
/-- 9.9: a BEACON of sender 7 synchronises context 7. -/
theorem test_beacon_synchronises :
    ((next (.rxBeacon (burst (.beacon 7 2 118))) (activeAt 12 4)).ctx 7).place = (2, 118, 117, 118) := by decide +kernel
/-- 3.9: station 7 hears DATA 42; its request delay is 12 slots. -/
theorem test_gap_claims_tracker :
    ((next (.rxData (burst (.data 3 5 42 one))) ((activeAt 7 0).setCtx 3 (context .steady 5 40 39 40))).tracker 0).timer =
      .requestDelay 12 := by decide +kernel
/-- 3.9: the tracker asks; the request is pending. -/
theorem test_requestDelay_pending :
    (next (.requestDelayRunsOut 0) (busy.setTracker 0
      { busy.tracker 0 with state := .delay, timer := .requestDelay 12 })).pool.requests =
      [{ tracker := 1, count := 0 }, { tracker := 0, count := 0 }] := by decide +kernel
/-- 3.9: a heard GAPREQ that covers the run first suppresses the request. -/
theorem test_gapreq_suppresses :
    ((next (.rxGapreq (burst (.gapreq 7 20 1 50 1))) busy).tracker 1).state = .wait := by decide +kernel
theorem test_replay_restarts_timeout :
    ((next (.rxReplay (burst (.replay 7 9 103 3 one))) (busy.setTracker 0
      { busy.tracker 0 with timer := .repairTimeout 7 })).tracker 0).timer = .repairTimeout 512 := by decide +kernel
theorem test_replay_cancels : (next (.rxReplay (burst (.replay 12 5 1 3 one))) busy).duty 5 = none := by decide +kernel
theorem test_repairTimeout_asks_again :
    ((next (.repairTimeoutRunsOut 0) busy).tracker 0).timer = .requestDelay 13 := by decide +kernel
/-- R64: the third attempt spent, the floor passes the run. -/
theorem test_repairTimeout_gives_up :
    ((next (.repairTimeoutRunsOut 0) (busy.setTracker 0 { busy.tracker 0 with attempts := 3 })).ctx 7).lossFloor = 104 := by
  decide +kernel
/-- 4.7: station 25 answers a request of station 20 after 21 slots. -/
theorem test_gapreq_makes_duties :
    let s := (activeAt 25 0).withStore
      { (activeAt 25 0).store with peer := [entry 9 1 100 false false false, entry 9 1 101 false false false] }
    (next (.rxGapreq (burst (.gapreq 20 9 1 100 3))) s).duty 1 =
      some { key := { origin := 9, epoch := 1, seq := 101 }, state := .delay, timer := some 21, count := 0 } := by
  decide +kernel
theorem test_replayDelay_joins : (next (.replayDelayRunsOut [2]) busy).duties.eligible = [5, 2] := by decide +kernel
theorem test_beaconTimer : (next .beaconTimerRunsOut busy).sched.beaconDuty = true := by decide +kernel
/-- 9.9: entry to ACTIVE. -/
theorem test_listenTimer_active :
    (next .listenTimerRunsOut (inState .listening (busy.withStation { busy.station with listenTimer := some 1 }))).station.state =
      .active := by decide +kernel
theorem test_silenceTimer : (next (.silenceTimerRunsOut 3) (busy.setCtx 3
    { busy.ctx 3 with silenceTimer := some 16384 })).isRaised .silent = true := by decide +kernel
/-- R17: a hand claim after the restart release is NOT_DUE. R18: a pin not carried. R19: the share in a lookup, a read of an
absent key. R14: a release without a RESERVED cell. -/
theorem test_claim_answers : ((busy.store.restartRelease 7 9).hand ⟨7, 9, 101⟩).1 = .notDue ∧
    (busy.store.hand ⟨7, 9, 101⟩).1 = .handed ∧ (busy.store.clearHanded ⟨7, 9, 101⟩).1 = .notCarried ∧
    busy.store.lookup ⟨7, 9, 101⟩ = .present 1 .peer Pins.onlyDue ∧ busy.store.read ⟨7, 9, 102⟩ = .absent ∧
    (activeAt 12 5).store.release.1 = .noneReserved := by decide +kernel
/-- 1.12: the reservation finds no FREE cell and evicts the oldest unpinned entry, sequence number 0. -/
theorem test_reservation_evicts :
    let es := [entry 5 2 0 false false false, entry 5 2 1 false false true, entry 5 2 3 false false false]
    Store.reserve 3 { own := es, peer := [], reserved := none } =
      some { own := es.drop 1, peer := [], reserved := some [] } := by decide +kernel

/-- Station 12 in LISTENING with a gap in the numbers of origin 7 that waits for a tracker. -/
def listening : State :=
  let s := setupAt 12
  { s with
    station := { s.station with state := .listening, listenTimer := some 8192 }
    contexts := s.contexts.set 7 (context .gapped 9 41 42 41)
    store := { s.store with peer := [entry 7 9 42 true false false] } }

theorem listening_trackers : TrackersSound listening where
  consistent := by intro t; fin_cases t <;> exact ⟨rfl, rfl⟩
  single := by decide +kernel
  held := by decide +kernel
  requestsNodup := by decide +kernel
  requests := by decide +kernel
  activeOnly := by decide +kernel

theorem listening_contexts : ContextsSound listening where
  ownState := by decide +kernel
  unsynced := by decide +kernel
  bounded := by
    intro o h
    have all : ∀ o : Station, (listening.ctx o).isSynced = true → o = 7 := by decide +kernel
    rw [all o h]
    constructor <;> decide +kernel
  due := by decide +kernel

/-- `busy` with more of origin 7 held. -/
def heldToo (ns : List SeqNum) : State :=
  busy.withStore { busy.store with peer := busy.store.peer ++ ns.map fun n => entry 7 9 n true false false }

/-- R52: the new run first 103 lies in the asked range 102, count 2; without an asked range a fresh request delay begins,
of 8 + 5 slots (R57). -/
theorem test_notice_moves_run_first :
    ((heldToo [102]).changeNotice 7).tracker 0 =
        { busy.tracker 0 with runFirst := 103, runCount := 1, attempts := 0, timer := .repairTimeout 512 } ∧
      (((heldToo [102]).setTracker 0 { busy.tracker 0 with asked := none }).changeNotice 7).tracker 0 =
        { busy.tracker 0 with
          runFirst := 103, runCount := 1, attempts := 0, state := .delay, timer := .requestDelay 13, asked := none } := by
  decide +kernel
/-- R53, R55: freed for a repaired gap, tracker 0 passes over origin 7 and serves the next origin that waits. -/
theorem test_freed_tracker_is_offered :
    (((heldToo [102, 103]).setCtx 3 (context .gapped 2 10 10 10)).changeNotice 7).tracker 0 =
      { state := .delay, origin := 3, epoch := 2, runFirst := 10, runCount := 1, attempts := 0, timer := .requestDelay 17,
        marker := .none, asked := none, lastOrigin := 3 } := by decide +kernel

/-! ### Hypotheses of the other statements -/

/-- A moved run first, a lower count, a run become empty, an origin that waits with tracker 0 the lowest FREE one, and one that
does not wait; freed trackers with another origin that waits, with the own one alone, and with none. -/
theorem witness_ChangeNoticeAtPool :
    (TrackersSound (heldToo [102]) ∧ RunIs (heldToo [102]) 7 103 1 ∧ RunIs (heldToo [103]) 7 102 1 ∧
      (∀ n : SeqNum, ¬ (heldToo [102, 103]).missing 7 n) ∧ ((heldToo [102]).ctx 7).Bounded ∧
      RunIs busy 20 50 1 ∧ (busy.ctx 20).Bounded) ∧
    ((heldToo [102]).ctx 7).isSynced = true ∧ ((heldToo [102]).tracker 0).state ≠ .free ∧
      ((heldToo [102]).tracker 0).origin = 7 ∧ ((heldToo [102]).tracker 0).runFirst = 102 ∧
      (∀ p : Station, (p - 7 - 1).toNat < ((20 : Station) - 7 - 1).toNat → (busy.ctx p).state ≠ .gapped) ∧
      (∀ p : Station, (p - 20 - 1).toNat < ((20 : Station) - 20 - 1).toNat → (busy.ctx p).state = .gapped →
        (busy.ctx p).trackerHeld = true ∧ p ≠ 20) ∧
      (busy.tracker 1).origin = 20 ∧ (busy.ctx 20).state = .gapped := by
  have bounded : ((heldToo [102]).ctx 7).Bounded := busy_contexts.bounded 7 (by decide +kernel)
  refine ⟨⟨trackers_of_pool busy_trackers rfl rfl rfl, State.runIs_of_runOf bounded.horizon (by decide +kernel),
    State.runIs_of_runOf bounded.horizon (by decide +kernel), fun n hn => ?_, bounded,
    State.runIs_of_runOf (busy_contexts.bounded 20 (by decide +kernel)).horizon (by decide +kernel),
    busy_contexts.bounded 20 (by decide +kernel)⟩, by decide +kernel⟩
  have h : ((heldToo [102, 103]).runOf 7).isSome = true :=
    (State.runOf_isSome (s := heldToo [102, 103]) bounded.horizon).mpr ⟨n, hn⟩
  exact absurd h (by decide +kernel)

/-- Origin 7 waits with every tracker FREE, with and without the station ACTIVE. -/
theorem witness_ChangeNoticeAtPool_unserved :
    let s := (listening.withStation { listening.station with state := .active, listenTimer := none })
    (TrackersSound s ∧ RunIs s 7 41 1 ∧ (s.ctx 7).Bounded) ∧ (s.ctx 7).isSynced = true ∧ (s.ctx 7).state = .gapped ∧
      s.station.state = .active ∧ (∀ i : Fin 8, (s.tracker i).state = .free ∨ (s.tracker i).origin ≠ 7) ∧
      (s.tracker 0).state = .free ∧ (∀ j : Fin 8, j < 0 → (s.tracker j).state ≠ .free) ∧
      listening.station.state ≠ .active := by
  have bounded : (listening.ctx 7).Bounded := listening_contexts.bounded 7 (by decide +kernel)
  refine ⟨⟨?_, State.runIs_of_runOf bounded.horizon (by decide +kernel), bounded⟩, by decide +kernel⟩
  exact
    { consistent := listening_trackers.consistent
      single := listening_trackers.single
      held := listening_trackers.held
      requestsNodup := listening_trackers.requestsNodup
      requests := listening_trackers.requests
      activeOnly := fun h => absurd rfl h }

theorem witness_StepTakesFrontCommand : State.reset.pending = [] := rfl
theorem witness_MrstReleaseStarts : State.reset.station.mrst = true ∧ busy.station.mrst = false := ⟨rfl, rfl⟩
theorem witness_PartialResetLeaves : busy.station.mrst = false ∧ SetupSound busy ∧ State.reset.station.mrst = true :=
  ⟨rfl, busy_setup, rfl⟩
theorem witness_MasterResetLeaves : State.reset.station.mrst = true ∧ isHostCommand .status = true := ⟨rfl, rfl⟩

/-- Each clause of each share: present, a FREE cell, an eviction past a pinned entry, nothing claimable. -/
theorem witness_InsertClaimDecides :
    let e := entry 7 9 5 true false false
    let two : List Entry := [entry 7 9 1 false false true, entry 7 9 2 false false false]
    let mine := entry 12 5 9 true false true
    let twoOwn : List Entry := [entry 12 5 1 false false true, entry 12 5 2 false false false]
    (onePeer false).find (entry 7 9 1 true false false).key = some (entry 7 9 1 false false false) ∧
      e.key.origin ≠ 12 ∧ (∀ x ∈ two, x.key ≠ e.key) ∧ 0 < (onePeer true).peerFree 1022 ∧
      Store.peerFree 1022 { own := [], peer := two, reserved := none } = 0 ∧
      (∀ x ∈ two.take 1, x.pins.isEmpty = false) ∧ (∀ x ∈ two.drop 1, x.pins.isEmpty = true) ∧
      (onePeer true).peerClaimable 1023 = 0 ∧
      mine.key.origin = 12 ∧ (∀ x ∈ twoOwn, x.key ≠ mine.key) ∧ 0 < (oneOwn true).ownFree 2 ∧
      Store.ownFree 2 { own := twoOwn, peer := [], reserved := none } = 0 ∧
      (∀ x ∈ twoOwn.take 1, x.pins.isEmpty = false) ∧ (∀ x ∈ twoOwn.drop 1, x.pins.isEmpty = true) ∧
      (oneOwn true).ownClaimable 1 = 0 := by decide +kernel

theorem witness_ReservationClaimsDecide :
    busy.store.reserved.isSome = true ∧ (oneOwn false).reserved = none ∧ 0 < (oneOwn false).ownFree 2 ∧
      (oneOwn false).ownFree 1 = 0 ∧ (oneOwn false).own = [] ++ entry 12 5 1 false false false :: [] ∧
      (entry 12 5 1 false false false).pins.isEmpty = true ∧ (oneOwn true).ownClaimable 1 = 0 ∧
      ((oneOwn false).reserve 1).isSome = true ∧ busy.store.reserved = some [0x01#8, 0x02#8] ∧
      (∃ x ∈ busy.store.own ++ busy.store.peer, x.key = busy.ownKey 5) ∧
      (∀ x ∈ busy.store.own ++ busy.store.peer, x.key ≠ busy.ownKey 6) := by decide +kernel

theorem witness_PinClaimsChangeOnePin :
    busy.store.find (busy.ownKey 6) = none ∧ (∃ x ∈ busy.store.own, x.key = busy.ownKey 4) ∧
      (∀ x ∈ busy.store.own, x.key ≠ { origin := 7, epoch := 9, seq := 104 }) ∧
      busy.store.find { origin := 7, epoch := 9, seq := 104 } = some (entry 7 9 104 true false false) ∧
      busy.store.find (busy.ownKey 4) = some (entry 12 5 4 true false true) ∧
      busy.store.find (busy.ownKey 3) = some (entry 12 5 3 true false false) ∧
      busy.store.find (busy.ownKey 2) = some (entry 12 5 2 false true false) ∧
      ({ origin := 7, epoch := 9, seq := 104 } : Key).origin = 7 ∧ busy.ownKey 6 ≠ busy.ownKey 4 := by decide +kernel

/-- A peer share of one cell: pinned or not. -/
def small (p : Bool) : State :=
  (busy.withStation { busy.station with setup := { busy.setup with ownShare := 1023 } }).withStore (onePeer p)

theorem witness_StoreReportsParkAndResume :
    let held := (small false).withSched (holding (.gapreq 1)).sched
    held.peerClaimable ≠ 0 ∧ (held.withStore (onePeer true)).peerClaimable = 0 ∧ held.sched.state = .holdoff ∧
      held.sched.commitment.map (fun c => c.duty) = some (.gapreq 1) ∧ ((small false).peerClaimable = 0 ↔ ((small false).withStore (onePeer false)).peerClaimable = 0) ∧
      (small false).peerClaimable ≠ 0 ∧ ((small false).withStore (onePeer true)).peerClaimable = 0 ∧
      (small true).peerClaimable = 0 ∧ ((small true).withStore (onePeer false)).peerClaimable ≠ 0 := by decide +kernel

theorem witness_PinnedEntriesStay :
    isReset (.frameEnd (readAlike (sendingData 1))) = false ∧
      exec (.frameEnd (readAlike (sendingData 1))) (sendingData 1) = .next (ended (sendingData 1)) ∧
      entry 12 5 4 true false true ∈ (sendingData 1).store.own ++ (sendingData 1).store.peer ∧
      (entry 12 5 4 true false true).pins.tx = true := ⟨rfl, rfl, by decide +kernel, rfl⟩

/-- Station 12 in each assembly state. -/
def assembling (x : AssemblyState) : State := busy.withSubmission { busy.submission with asm := x }
def longer : State := busy.withSubmission { busy.submission with length := 120, expected := 60, taken := 58 }
def idling : State := (assembling .idle).withStore { busy.store with reserved := none }

theorem witness_DataWordOutcomes :
    (setupAt 12).station.mrst = false ∧ (setupAt 12).wrdy = false ∧ busy.station.mrst = false ∧ idling.wrdy = true ∧
      idling.submission.asm = .idle ∧ (0 : Word).toNat = 0 ∧ 120 < (121 : Word).toNat ∧ 1 ≤ (1 : Word).toNat ∧
      (120 : Word).toNat ≤ 120 ∧ idling.store.reserved = none ∧ longer.wrdy = true ∧
      longer.submission.asm = .assembling ∧ longer.submission.taken + 1 < longer.submission.expected ∧
      busy.wrdy = true ∧ busy.submission.asm = .assembling ∧ busy.submission.taken + 1 = busy.submission.expected ∧
      (assembling .awaitingEnd).wrdy = true ∧ (assembling .awaitingEnd).submission.asm = .awaitingEnd ∧
      (assembling .discarding).wrdy = true ∧ (assembling .discarding).submission.asm = .discarding := by decide +kernel

theorem witness_SubmissionIsStored :
    let again := idling.withSubmission { idling.submission with nextSeq := 5 }
    1 ≤ one.length ∧ (List.replicate 120 0x55#8).length ≤ 120 ∧ idling.station.mrst = false ∧ idling.wrdy = true ∧
      idling.submission.asm = .idle ∧ idling.store.reserved = none ∧
      idling.store.reserve idling.setup.ownShare = some { idling.store with reserved := some [] } ∧
      (∀ x ∈ idling.store.own ++ idling.store.peer, x.key ≠ idling.ownKey idling.submission.nextSeq) ∧
      again.wrdy = true ∧ ∃ x ∈ again.store.own ++ again.store.peer, x.key = again.ownKey again.submission.nextSeq := by
  decide +kernel

theorem setup_ready : HostReady (setupAt 12) := ⟨rfl, rfl, rfl⟩
theorem busy_ready : HostReady busy := ⟨rfl, rfl, rfl⟩
theorem inState_ready (x : StationState) : HostReady (inState x busy) := ⟨rfl, rfl, rfl⟩

/-- Boundary values of the ranges of Table 9.2 on the two sides, and identifiers 0 and 13. -/
theorem witness_SetWritesOneField : HostReady (setupAt 12) ∧ (setupAt 12).station.state = .setup ∧ HostReady busy ∧
    busy.station.state ≠ .setup ∧ (12 : Nat) < (13 : Word).toNat ∧
    answer (next (.set 1 8) (setupAt 12)) = [0x0100] ∧ answer (next (.set 1 513) (setupAt 12)) = [0x0400] ∧
    answer (next (.set 12 15) (setupAt 12)) = [0x0100] ∧ answer (next (.set 12 16) (setupAt 12)) = [0x0400] ∧
    answer (next (.set 4 31) (setupAt 12)) = [0x0400] ∧ answer (next (.set 0 0) (setupAt 12)) = [0x0300] ∧
    (next (.set 3 255) (setupAt 12)).setup.repairBase = 255 :=
  ⟨setup_ready, rfl, busy_ready, by decide +kernel⟩

theorem witness_JoinAndRecoverListen : HostReady (setupAt 12) ∧ (setupAt 12).station.state = .setup ∧
    HostReady (inState .ready busy) ∧ (inState .ready busy).station.state = .ready ∧ HostReady busy ∧
    busy.station.state = .active ∧ HostReady (inState .muted busy) ∧ (inState .muted busy).station.state = .muted :=
  ⟨setup_ready, rfl, inState_ready _, rfl, busy_ready, rfl, inState_ready _, rfl⟩

theorem witness_LeaveLeaves : HostReady busy ∧ busy.station.state = .active ∧ busy.sched.state = .idle ∧
    HostReady (sendingData 3) ∧ (sendingData 3).station.state = .active ∧ (sendingData 3).sched.state = .sending ∧
    HostReady (setupAt 12) ∧ (setupAt 12).station.state = .setup :=
  ⟨busy_ready, rfl, rfl, ⟨rfl, rfl, rfl⟩, rfl, rfl, setup_ready, rfl⟩

theorem witness_ReadsAnswerAndChangeNothing : HostReady busy ∧ ModeSound busy ∧ SetupSound busy ∧ StoreSound busy ∧
    SubmissionSound busy ∧ DeliverySound busy ∧ WireSound busy ∧ 31 < (32 : Word).toNat :=
  ⟨busy_ready, busy_mode, busy_setup, busy_store, busy_submission, busy_delivery, busy_wire, by decide⟩

theorem witness_EventAndCounterCommands : HostReady misuse ∧ misuse.events.flags = 0x401#11 :=
  ⟨⟨rfl, rfl, rfl⟩, by decide +kernel⟩

/-- `busy` with the record `r` as the head of the queue, and with an empty queue. -/
def heading (r : Record) : State := busy.withDelivery { busy.delivery with queue := [r, .lost 3 2 10 4] }
def unqueued : State := busy.withDelivery { busy.delivery with queue := [] }

theorem witness_DiscardHeadRemovesHead : HostReady unqueued ∧ unqueued.delivery.queue = [] ∧ HostReady busy ∧
    busy.delivery.queue = .message (busy.ownKey 2) :: [.lost 3 2 10 4, .restart 4 1 2 9] ∧
    HostReady (heading (.lost 7 4 202 1)) ∧ HostReady (heading (.restart 4 1 2 9)) :=
  ⟨⟨rfl, rfl, rfl⟩, rfl, busy_ready, rfl, ⟨rfl, rfl, rfl⟩, ⟨rfl, rfl, rfl⟩⟩

/-- `busy` with the parser in `x`, and with a response unread. -/
def parsing (x : Parser) : State := busy.withControl { busy.control with parser := x }
def unread : State := busy.withControl { busy.control with response := [0x0100, 7], readPos := 0 }

/-- A parser that has taken one argument of SET, as it takes the second. -/
theorem witness_ParserStaysSound :
    let s := (parsing (.collecting .set [1])).withPending [.controlWord 8 true]
    (∃ t : State, step s = .next t) ∧ ParserSound s := by
  refine ⟨⟨_, rfl⟩, fun c args h => ?_⟩
  injection (show Parser.collecting .set [1] = .collecting c args from h) with h1 h2
  subst h1 h2
  decide

theorem witness_ControlWordParser : unread.station.mrst = false ∧ unread.control.parser = .idle ∧
    unread.control.response ≠ [] ∧ HostReady busy ∧
    (0x0201 : Word) ∉
      [0x0102, 0x0200, 0x0300, 0x0400, 0x1000, 0x1101, 0x1200, 0x1300, 0x1400, 0x1501, 0x1601, 0x1701, 0x2000] ∧
    (parsing (.collecting .set [])).control.parser = .collecting .set [] ∧
    (parsing (.collecting .set [1])).control.parser = .collecting .set [1] ∧
    (parsing .rejecting).control.parser = .rejecting ∧ (parsing .ignoring).control.parser = .ignoring :=
  ⟨rfl, rfl, by decide +kernel, busy_ready, by decide +kernel, rfl, rfl, rfl, rfl⟩

theorem witness_TakesReadResponse_unread : isHostCommand .status = true ∧ unread.station.mrst = false ∧
    unread.control.parser = .idle ∧ unread.control.response ≠ [] := by decide +kernel

theorem witness_TakesReadResponse : busy.station.mrst = false ∧ busy.control.response = [] ∧ unread.station.mrst = false ∧
    unread.control.readPos = 0 ∧ unread.control.response[0]? = some 0x0100 ∧ unread.control.response[1]? = some 7 := by
  decide +kernel

/-- A full queue, no ready context, and each kind of readiness behind contexts that are not ready. -/
theorem witness_DeliveryTurnServes :
    let full := busy.withDelivery { busy.delivery with queue := List.replicate 128 (.lost 3 2 10 4) }
    let s12 := busy.withDelivery { busy.delivery with lastServed := 7 }
    let s4 := (busy.withDelivery { busy.delivery with lastServed := 31 }).setCtx 4
      { context .steady 2 0 1 0 with restartPending := true, restartOldEpoch := 1, restartCount := 9 }
    (busy.ctx 9).state = .unsynced ∧ (busy.ctx 12).state = .own ∧ (s4.ctx 4).isSynced = true ∧
      (s4.ctx 4).restartPending = true ∧ (busy.ctx 7).isSynced = true ∧ (busy.ctx 7).restartPending = false ∧
      busy.store.find ⟨7, 9, 100⟩ = none ∧ busy.store.find ⟨7, 9, 101⟩ = some (entry 7 9 101 true false false) ∧
      ((busy.setCtx 7 (context .gapped 9 101 104 101)).ctx 7).nextDue = 101 ∧
    128 ≤ full.delivery.queue.length ∧ (∀ o : Station, (activeAt 12 5).ready o = .no) ∧
      busy.delivery.queue.length < 128 ∧ busy.ready 7 = .lost ∧
      (∀ p : Station, (p - 12 - 1).toNat < ((7 : Station) - 12 - 1).toNat → busy.ready p = .no) ∧
      s12.ready 12 = .message ∧ (∀ p : Station, (p - 7 - 1).toNat < ((12 : Station) - 7 - 1).toNat → s12.ready p = .no) ∧
      s4.ready 4 = .restart ∧ (∀ p : Station, (p - 31 - 1).toNat < ((4 : Station) - 31 - 1).toNat → s4.ready p = .no) := by
  decide +kernel

theorem witness_DeliveryTurnServes_bounded : (busy.ctx 7).Bounded := busy_contexts.bounded 7 (by decide +kernel)

/-- The example of 11.2 as the head of the queue, a MESSAGE of the greatest length, and the other two kinds. -/
theorem witness_TakesReadRecord :
    let k : Key := { origin := 3, epoch := 5, seq := 41 }
    let s := (heading (.message k)).withStore example112
    s.station.mrst = false ∧ s.delivery.queue = .message k :: [.lost 3 2 10 4] ∧ s.delivery.readPos = 0 ∧
      (s.store.find k).map (fun e => e.payload) = some [0x41, 0x42, 0x43] ∧
      [0x0103, 0x0503, 0x0029, 0x4142, 0x4300] = [BitVec.ofNat 16 (256 + k.origin.toNat),
        BitVec.ofNat 16 (256 * k.epoch.toNat + 3), k.seq] ++ wordsOf 0 [0x41, 0x42, 0x43] ∧
      (wordsOf 0 (List.replicate 120 0x55#8)).length = 60 ∧
      (heading (.lost 7 4 202 1)).delivery.queue = .lost 7 4 202 1 :: [.lost 3 2 10 4] ∧
      (heading (.restart 4 1 2 9)).delivery.queue = .restart 4 1 2 9 :: [.lost 3 2 10 4] := by decide +kernel

theorem witness_TakeOnEmptyQueue : unqueued.station.mrst = false ∧ unqueued.delivery.queue = [] := ⟨rfl, rfl⟩

theorem witness_LineMonitorFollowsLine :
    busy.station.mrst = false ∧ ((collided (sendingData 0)).trunk.rx.path = .skip) := by decide +kernel

theorem witness_FrameRoundTrip : (Frame.data 31 255 65535 one).wf = true ∧
    (Frame.replay 0 0 0 31 (List.replicate 120 0x5E#8)).wf = true ∧ (Frame.gapreq 1 2 3 4 8).wf = true ∧
    (Frame.gapreq 1 2 3 4 1).wf = true ∧ (Frame.beacon 31 0 0).wf = true := by decide +kernel

theorem witness_OneWrongBitIsFrameError : (Frame.beacon 31 1 9).wf = true ∧ (Frame.beacon 31 1 9).bytes.flatMap bitsOfByte =
    [] ++ false :: ((Frame.beacon 31 1 9).bytes.flatMap bitsOfByte).drop 1 := by decide +kernel

theorem witness_FrameErrorIsCounted : busy.station.mrst = false ∧ busy.trunk.rx.path = .waiting ∧
    (busy.trunk.rx.cells [.data true]).decide = .error ∧
    (inState .listening busy).trunk.rx.path = .waiting ∧ burstOf (.rxData [.data true]) = some [.data true] ∧
    (collided (sendingData 0)).trunk.rx.path = .skip ∧ (setupAt 12).trunk.rx.path = .off ∧
    (sendingData 0).trunk.rx.path = .own := by decide +kernel

/-- A fragment after no cell, and after 15 violation cells that a data cell broke off. -/
theorem witness_FragmentLeavesNoTrace :
    let before := List.replicate 15 BurstCell.violation ++ [.data true]
    busy.station.mrst = false ∧ busy.trunk.rx.path = .waiting ∧ (busy.trunk.rx.cells []).violations < 16 ∧
      (busy.trunk.rx.cells []).path ≠ .skip ∧ (busy.trunk.rx.cells before).violations < 16 ∧
      (busy.trunk.rx.cells before).path ≠ .skip := by decide +kernel

theorem busy_takes (x : StationState) : (inState x busy).takesBurst := ⟨rfl, Or.inl rfl⟩

theorem witness_ClashByStationState : (Frame.beacon 12 1 0).wf = true ∧ (Frame.beacon 12 1 0).sender = busy.stn ∧
    (inState .listening busy).takesBurst ∧ (inState .active busy).takesBurst ∧ (inState .leaving busy).takesBurst ∧
    (inState .muted busy).takesBurst := ⟨rfl, rfl, busy_takes _, busy_takes _, busy_takes _, busy_takes _⟩

/-- Frames at the edges of the cases of Table 2.4 for origin 7: next-due 100, floor 101, horizon 104. -/
theorem witness_PeerFrameIsClassified :
    (inState .active busy).takesBurst ∧ 1 ≤ one.length ∧ one.length ≤ 120 ∧ (7 : Station) ≠ busy.stn ∧
      (busy.ctx 9).state = .unsynced ∧ 0 < busy.peerClaimable ∧ ((small true).ctx 9).state = .unsynced ∧
      (∀ x ∈ (small true).store.own ++ (small true).store.peer, x.key ≠ { origin := 9, epoch := 0, seq := 5 }) ∧
      (∀ x ∈ busy.store.own ++ busy.store.peer, x.key ≠ { origin := 7, epoch := 10, seq := 5 }) ∧
      0 < (busy.store.restartRelease 7 9).peerClaimable busy.setup.ownShare ∧
      ((small true).store.restartRelease 7 9).peerClaimable (small true).setup.ownShare = 0 ∧
      (∀ x ∈ (small true).store.own ++ (small true).store.peer, x.key ≠ { origin := 7, epoch := 10, seq := 5 }) ∧
      (busy.ctx 7).isSynced = true ∧
      newer 8 (busy.ctx 7).epoch = false ∧ newer 10 (busy.ctx 7).epoch = true ∧ newer 136 (busy.ctx 7).epoch = true ∧
      newer 137 (busy.ctx 7).epoch = false ∧ (32767 : SeqNum).toNat ≤ 32767 ∧
      (busy.ctx 7).restartPending = false ∧
      ((32868 : SeqNum) - (busy.ctx 7).nextDue).toNat = 32768 ∧
      (∃ x ∈ busy.store.own ++ busy.store.peer, x.key = { origin := 7, epoch := 9, seq := 101 }) ∧
      (∀ x ∈ busy.store.own ++ busy.store.peer, x.key ≠ { origin := 7, epoch := 9, seq := 164 }) ∧
      ((164 : SeqNum) - (busy.ctx 7).nextDue).toNat =
        ((busy.ctx 7).base - (busy.ctx 7).nextDue).toNat + 63 ∧
      ((165 : SeqNum) - (busy.ctx 7).nextDue).toNat =
        ((busy.ctx 7).base - (busy.ctx 7).nextDue).toNat + 64 ∧
      (small true).peerClaimable = 0 ∧ ((small true).ctx 7).isSynced = true :=
  ⟨busy_takes _, by decide +kernel⟩

theorem witness_HeardFrameCancelsDuty : 1 ≤ one.length ∧ one.length ≤ 120 ∧ (3 : Station) ≠ busy.stn ∧
    (inState .active busy).takesBurst ∧ TrackersSound busy ∧ TrackersSound (holding (.gapreq 1)) ∧
    (∃ (d : Fin 16) (x : Duty), busy.duty d = some x ∧ x.key = busy.ownKey 1 ∧ x.state ≠ .sending) ∧
    (busy.ownKey 1).origin = busy.stn ∧ (holding (.replay 5)).takesBurst ∧ (holding (.gapreq 1)).takesBurst ∧
    ((holding (.replay 5)).duty 5).map (fun x => x.key) = some (busy.ownKey 1) ∧
    ((holding (.gapreq 1)).tracker 1).marker = .pending ∧ (holding .data).sched.state = .holdoff :=
  ⟨by decide, by decide, by decide +kernel, busy_takes _, busy_trackers, trackers_of_pool busy_trackers rfl rfl rfl,
    ⟨5, _, rfl, rfl, by decide⟩, rfl, ⟨rfl, Or.inl rfl⟩,
    ⟨rfl, Or.inl rfl⟩, by decide +kernel⟩

theorem witness_BeaconIsTaken : (inState .active busy).takesBurst ∧ (7 : Station) ≠ busy.stn ∧
    (busy.ctx 9).state = .unsynced ∧ (busy.ctx 7).isSynced = true ∧ newer 8 (busy.ctx 7).epoch = false ∧
    (8 : Epoch) ≠ (busy.ctx 7).epoch ∧ (9 : Epoch) = (busy.ctx 7).epoch ∧ newer 10 (busy.ctx 7).epoch = true ∧
    (busy.ctx 7).restartPending = false ∧
    ((busy.setCtx 7 { busy.ctx 7 with restartPending := true }).ctx 7).restartPending = true :=
  ⟨busy_takes _, by decide +kernel⟩

/-- A small peer share that a request's duty fills, and one that a cancelled duty frees. -/
theorem witness_HeardFramesAtTrackers :
    let freed := (small true).setDuty 0
      (some { key := { origin := 7, epoch := 9, seq := 1 }, state := .delay, timer := some 9, count := 0 })
    (small false).takesBurst ∧ freed.takesBurst ∧ (holding (.gapreq 1)).takesBurst ∧ (3 : Station) ≠ busy.stn ∧
      1 ≤ one.length ∧ one.length ≤ 120 ∧ (small false).peerClaimable ≠ 0 ∧
      (next (.rxGapreq (burst (.gapreq 3 7 9 1 1))) (small false)).peerClaimable = 0 ∧
      (freed.ctx 7).isSynced = true ∧ (∃ x ∈ freed.store.own ++ freed.store.peer, x.key = ⟨7, 9, 1⟩) ∧
      freed.peerClaimable = 0 ∧ (next (.rxReplay (burst (.replay 7 9 1 3 one))) freed).peerClaimable ≠ 0 ∧
      newer 8 (busy.ctx 7).epoch = false ∧ ((holding (.gapreq 1)).tracker 1).marker = .pending ∧
      ((next (.rxReplay (burst (.replay 7 9 102 3 one))) busy).tracker 0).state = .wait ∧
      (next (.rxGapreq (burst (.gapreq 7 20 1 50 1))) (holding (.gapreq 1))).sched.state = .idle :=
  ⟨⟨rfl, Or.inl rfl⟩, ⟨rfl, Or.inl rfl⟩, ⟨rfl, Or.inl rfl⟩, by decide +kernel⟩

theorem witness_GapreqMakesDuties : (7 : Station) ≠ busy.stn ∧ (1 : Nat) ≤ 8 ∧ (inState .active busy).takesBurst ∧
    busy.station.state = .active ∧ busy.store.heldWithoutTx (busy.ownKey 3) = true ∧ busy.duty 0 = none ∧
    (inState .muted busy).takesBurst ∧ (inState .muted busy).station.state ≠ .active :=
  ⟨by decide +kernel, by decide, busy_takes _, rfl, by decide +kernel, by decide +kernel, busy_takes _, by decide +kernel⟩

theorem witness_TrackerTimersRunOut :
    let asking := busy.setTracker 0 { busy.tracker 0 with state := .delay, timer := .requestDelay 12 }
    let spent := busy.setTracker 0 { busy.tracker 0 with attempts := 3 }
    (asking.tracker 0).timer = .requestDelay 12 ∧ (busy.tracker 0).timer = .repairTimeout 512 ∧
      (busy.tracker 0).attempts < busy.setup.attemptLimit ∧ (spent.tracker 0).timer = .repairTimeout 512 ∧
      spent.setup.attemptLimit ≤ (spent.tracker 0).attempts ∧
      (spent.ctx (spent.tracker 0).origin).isSynced = true ∧
      (spent.ctx (spent.tracker 0).origin).epoch = (spent.tracker 0).epoch ∧ (4 : Nat) ≤ 32768 ∧
      (spent.tracker 0).runFirst + BitVec.ofNat 16 (spent.tracker 0).runCount =
        (spent.ctx (spent.tracker 0).origin).nextDue + BitVec.ofNat 16 4 := by decide +kernel
theorem witness_TrackerTimersRunOut_bounded : (busy.ctx 7).Bounded :=
  busy_contexts.bounded 7 (by decide +kernel)

/-- Two duties whose delays run out together, across the wrap of the sequence numbers. -/
def delaying : State :=
  (busy.setDuty 2 (some { key := { origin := 7, epoch := 9, seq := 65535 }, state := .delay, timer := some 18, count := 0 })).setDuty
    3 (some { key := { origin := 7, epoch := 9, seq := 0 }, state := .delay, timer := some 18, count := 0 })
theorem witness_TimersAndJamEnd_replay : (next (.replayDelayRunsOut [3, 2]) delaying).duties.eligible = [5] ++ [2, 3] ∧
    (delaying.duty 2).isSome = true ∧ ((0 : SeqNum) - 65535).toNat ≤ 32767 := by decide +kernel

theorem witness_TimersAndJamEnd :
    let jamming := (collided (sendingData 0))
    busy.sched.beaconTimer.isSome = true ∧ ((busy.heard 7).ctx 7).silenceTimer.isSome = true ∧
      jamming.sched.state = .jamming ∧ jamming.station.state ≠ .leaving ∧
      (inState .leaving jamming).station.state = .leaving := by decide +kernel

theorem witness_ListenTimerEntersActive : listening.station.state = .listening ∧
    listening.station.listenTimer.isSome = true ∧ TrackersSound listening ∧ ContextsSound listening ∧
    GapsDecided listening ∧ (listening.ctx 7).state = .gapped ∧
    ∀ p : Station, (p - (listening.tracker 0).lastOrigin - 1).toNat < ((7 : Station) - (listening.tracker 0).lastOrigin - 1).toNat →
      (listening.ctx p).state ≠ .gapped :=
  ⟨rfl, rfl, listening_trackers, listening_contexts, gaps_of listening_contexts (by decide +kernel), by decide +kernel⟩

/-- Each class as the highest-ranked candidate; a hold-off of 0 cells arises at the count 4 for station 12. -/
theorem witness_SelectionCommitsHighestRanked :
    let noReplay := busy.withDuties DutyPool.atReset
    let noRequest := noReplay.withPool TrackerPool.atReset
    let idle := ((activeAt 12 5).withSched { (activeAt 12 5).sched with beaconDuty := true })
    busy.trunk.lineIdle = true ∧ busy.station.state = .active ∧ busy.sched.state = .idle ∧ busy.sched.commitment = none ∧
      busy.candidate .replay = some { duty := .replay 5, count := 2 } ∧
      noReplay.candidate .replay = none ∧ noReplay.candidate .gapreq = some { duty := .gapreq 1, count := 0 } ∧
      noRequest.candidate .gapreq = none ∧ noRequest.candidate .data = some { duty := .data, count := 0 } ∧
      idle.candidate .data = none ∧ idle.candidate .beacon = some { duty := .beacon, count := 0 } ∧
      32 * FrameClass.replay.idx + ((12 : Station).toNat + 5 * 4) % 32 = 0 ∧ (setupAt 12).station.state ≠ .active := by
  decide +kernel

theorem witness_HoldoffStartsFrame :
    (holding (.replay 5)).sched.state = .holdoff ∧ (holding (.replay 5)).sched.holdoff = some 9 ∧
      (holding (.replay 5)).sched.commitment = some { duty := .replay 5, count := 0 } ∧
      (holding (.replay 5)).station.state = .active ∧
      (holding (.replay 5)).duty 5 =
        some { key := busy.ownKey 1, state := .eligible, timer := none, count := 2 } ∧
      (holding (.replay 5)).store.find (busy.ownKey 1) = some (entry 12 5 1 false false true) ∧
      ((holding (.gapreq 1)).tracker 1).marker = .pending ∧
      (holding .data).submission.queue.head? = some { seq := 4, count := 0, marker := .waiting } ∧
      (holding .data).store.find { origin := 12, epoch := 5, seq := 4 } = some (entry 12 5 4 true false true) ∧
      (holding .beacon).sched.beaconDuty = true ∧ (holding (.replay 0)).duty 0 = none ∧
      ((holding (.gapreq 0)).tracker 0).marker ≠ .pending := by decide +kernel

theorem witness_FrameEndTellsSent :
    (sendingReplay 2).sched.state = .sending ∧ (sendingReplay 2).trunk.tx.isSome = true ∧
      (sendingReplay 2).sched.commitment = some { duty := .replay 5, count := 2 } ∧
      ((sendingReplay 2).duty 5).map (fun x => x.state) = some .sending ∧ (sendingGapreq 0).sched.state = .sending ∧
      ((sendingGapreq 0).tracker 1).marker = .onWire ∧ (sendingData 1).sched.state = .sending ∧
      (sendingData 1).submission.queue.head? = some { seq := 4, count := 1, marker := .sending } ∧
      (sendingBeacon 0).sched.commitment = some { duty := .beacon, count := 0 } ∧
      (inState .leaving (sendingData 1)).station.state = .leaving := by decide +kernel

theorem witness_CollisionReturnsDuty :
    (sendingReplay 14).sched.state = .sending ∧
      (sendingReplay 14).sched.commitment = some { duty := .replay 5, count := 14 } ∧ (14 : Nat) < 15 ∧
      ((sendingReplay 14).trunk.tx.map fun bytes => (lineCells bytes).head?) = some (some (.data true)) ∧
      some (BurstCell.data false) ≠ some (.data true) ∧ some BurstCell.violation ≠ some (.data true) ∧
      none ≠ some (BurstCell.data true) ∧
      ((sendingGapreq 0).tracker 1).marker = .onWire ∧ (sendingData 0).sched.state = .sending ∧
      (sendingBeacon 0).sched.beaconDuty = true := by decide +kernel

theorem witness_SixteenthCollisionAbandons :
    let third := (sendingReplay 15).withSched { (sendingReplay 15).sched with abandons := 2 }
    (sendingReplay 15).sched.state = .sending ∧
      (sendingReplay 15).sched.commitment = some { duty := .replay 5, count := 15 } ∧
      ((sendingReplay 15).trunk.tx.map fun bytes => (lineCells bytes).head?) = some (some (.data true)) ∧
      (sendingReplay 15).sched.abandons < 2 ∧ ((sendingReplay 15).duty 5).map (fun x => x.state) = some .sending ∧
      (sendingData 15).submission.queue.head? = some { seq := 4, count := 15, marker := .sending } ∧
      ((sendingGapreq 15).tracker 1).marker = .onWire ∧
      (sendingBeacon 15).sched.commitment = some { duty := .beacon, count := 15 } ∧
      third.station.state = .active ∧ third.sched.abandons = 2 ∧ third.sched.abandons ≤ 3 := by decide +kernel

/-- An idle parser is sound, and each of the changes that the statement allows comes about. -/
theorem witness_StationChangesOnlyAsRuled :
    (ParserSound listening ∧ ParserSound (holding .data) ∧ ParserSound State.reset ∧ ParserSound (setupAt 12) ∧
      ParserSound busy) ∧ ((next .listenTimerRunsOut listening).station.state = .active ∧ listening.station.state ≠ .active) ∧
      ((next .holdoffRunsOut (holding .data)).sched.state = .sending ∧ (holding .data).sched.state ≠ .sending) ∧
      (next (.mrstRelease 12 3) State.reset).stn ≠ State.reset.stn ∧
      (next (.set 1 8) (setupAt 12)).setup ≠ (setupAt 12).setup ∧
      (next (.controlWord 8 true) (next (.controlWord 1 false) (next (.controlWord 0x0102 false) (setupAt 12)))).setup.ownShare =
        8 ∧
      (next .join (next .responseTake (next (.set 11 7) (setupAt 12)))).submission.ownEpoch = 7 ∧
      (next .partialReset busy).submission.ownEpoch ≠ busy.submission.ownEpoch :=
  ⟨⟨nofun, nofun, nofun, nofun, nofun⟩, by decide +kernel⟩

theorem witness_FlagsAndCountersStand :
    isReset (.frameEnd (readAlike (sendingData 1))) = false ∧
      (∀ w : Word, ∀ wend : Bool, Instr.frameEnd (readAlike (sendingData 1)) ≠ .controlWord w wend) ∧
      misuse.control.parser = .idle ∧ misuse.isRaised .loss = true ∧
      (sendingData 1).counters.words[0]? = some 0 ∧ (ended (sendingData 1)).counters.words[0]? = some 0 :=
  ⟨rfl, by simp, rfl, by decide +kernel, by decide +kernel, by decide +kernel⟩

end Sys2Proof.Tests
end

section
/-! The read side on an empty Delivery Queue (R102, R103). -/

namespace Sys2Proof.Machine

theorem rval_eq_false_iff (s : State) : s.rval = false ↔ s.delivery.queue = [] := by
  rw [State.rval, decide_eq_false_iff_not, Nat.one_le_iff_ne_zero, not_not, List.length_eq_zero_iff]

/-- With MRST negated the command is the take itself, whatever the queue holds. -/
theorem exec_deliveryTake_running {s : State} (running : s.station.mrst = false) :
    exec .deliveryTake s = .next s.takeDelivery :=
  calc exec .deliveryTake s = execDeliveryTake s := rfl
    _ = .next s.takeDelivery := by simp [execDeliveryTake, running]

theorem takeDelivery_of_empty {s : State} (empty : s.delivery.queue = []) :
    s.takeDelivery = (s.withOut { rd := 0, rlast := false }).raise .portMisuse := by
  simp only [State.takeDelivery, empty, State.putOut]

/-- Settles O38: R103 gives the line, and the take finds no record (R102). -/
theorem takeOnEmptyQueue : Obligations.TakeOnEmptyQueue := by
  intro s running empty
  have low : s.rval = false := (rval_eq_false_iff s).mpr empty
  have take := exec_deliveryTake_running running
  rw [takeDelivery_of_empty empty] at take
  exact ⟨low, take⟩

end Sys2Proof.Machine
end

section
/-! A command that the host writes to a ready control channel, from its words to its response (R174, R176, R178, R188). -/

namespace Sys2Proof.Machine

/-! ### The words of a command at the parser -/

theorem commandOf_word0 (c : Command) : commandOf c.word0 = some c := by
  cases c <;> decide

/-- What a command does does not depend on the state the parser was in. -/
@[simp] theorem run_setParser (s : State) (p : Parser) (c : Command) (args : List Word) :
    (s.setParser p).run c args = s.run c args := rfl

/-- With MRST negated a word that comes while `c` is being collected is `c`'s next argument. -/
theorem controlWord_of_collecting {s : State} {c : Command} {taken : List Word} (running : s.station.mrst = false)
    (collecting : s.control.parser = .collecting c taken) (w : Word) (wend : Bool) :
    s.controlWord w wend = s.argumentWord c taken w wend := by
  simp [State.controlWord, running, collecting]

/-- With an empty response buffer, word 0 with WEND runs a command without arguments. -/
theorem commandWord0_word0_end {s : State} {c : Command} (read : s.control.response = []) (bare : c.argCount = 0) :
    s.commandWord0 c.word0 true = s.run c [] := by
  simp [State.commandWord0, read, commandOf_word0, bare]

/-- With an empty response buffer, word 0 without WEND begins to collect the arguments of a command that has some. -/
theorem commandWord0_word0_more {s : State} {c : Command} (read : s.control.response = []) (more : c.argCount ≠ 0) :
    s.commandWord0 c.word0 false = s.setParser (.collecting c []) := by
  simp [State.commandWord0, read, commandOf_word0, more]

/-- The arguments that are left, the last with WEND, complete the command (R174). -/
theorem collect_rest {c : Command} (rest : List Word) {s : State} {taken : List Word} (running : s.station.mrst = false)
    (collecting : s.control.parser = .collecting c taken) (left : rest ≠ [])
    (count : taken.length + rest.length = c.argCount) :
    (withWend rest).foldl (fun s x => s.controlWord x.1 x.2) s = s.run c (taken ++ rest) := by
  induction rest generalizing s taken with
  | nil => exact absurd rfl left
  | cons w rest ih =>
    cases rest with
    | nil =>
      have last : ¬ taken.length + 1 < c.argCount := by simp at count; omega
      simp [withWend, controlWord_of_collecting running collecting, State.argumentWord, last]
    | cons v rest =>
      have more : taken.length + 1 < c.argCount := by simp at count; omega
      have next := ih (s := s.setParser (.collecting c (taken ++ [w]))) (taken := taken ++ [w]) running rfl (by simp)
        (by simp at count ⊢; omega)
      simpa [withWend, controlWord_of_collecting running collecting, State.argumentWord, more] using next

/-- A ready channel takes word 0 and the arguments of a command, and runs it (R174, R178). -/
theorem issue_of_ready {s : State} (ready : HostReady s) {c : Command} {args : List Word}
    (count : args.length = c.argCount) : s.issue c args = s.run c args := by
  obtain ⟨running, idle, read⟩ := ready
  have all_left : s.wordsLeft c args = c.word0 :: args := by simp [State.wordsLeft, idle]
  have word0 (wend : Bool) : s.controlWord c.word0 wend = s.commandWord0 c.word0 wend := by
    simp [State.controlWord, running, idle]
  cases args with
  | nil =>
    have bare : c.argCount = 0 := count.symm
    simp [State.issue, all_left, withWend, word0, commandWord0_word0_end read bare]
  | cons w rest =>
    have more : c.argCount ≠ 0 := by simp at count; omega
    have collected := collect_rest (w :: rest) (s := s.setParser (.collecting c [])) (taken := []) running rfl (by simp)
      (by simpa using count)
    simpa [State.issue, all_left, withWend, word0, commandWord0_word0_more read more] using collected

/-! ### The response -/

/-- The two bytes of word 0 of a response do not overlap, its data words being fewer than 256 (R176, R188). -/
theorem respond_eq_answered {s : State} (idle : s.control.parser = .idle) (st : Status) {data : List Word}
    (short : data.length < 256) : s.respond st data = s.answered st data := by
  cases st <;>
    simp [State.respond, State.answered, idle, responseWords, packWord, bitField, Status.code, Nat.mod_eq_of_lt short]

/-- The parser of a ready channel is IDLE already. -/
theorem setParser_idle_of_ready {s : State} (ready : HostReady s) : s.setParser .idle = s := by
  simp [State.setParser, State.withControl, ← ready.idle]

/-- A command at a ready channel leaves its response behind its effect (R178). -/
theorem run_of_ready {s : State} (ready : HostReady s) (c : Command) (args : List Word) :
    s.run c args = (s.execute c args).after.respond (s.execute c args).status (s.execute c args).data := by
  simp [State.run, setParser_idle_of_ready ready]

end Sys2Proof.Machine
end

section
/-! SET: the field identifiers and the ranges of Table 9.2 (R164). -/

namespace Sys2Proof.Machine

/-! ### The setup record -/

theorem put_within (old new : Setup) (low high v : Nat) :
    old.put (within low high v) new = if low ≤ v ∧ v ≤ high then (.done, new) else (.refusedValue, old) := by
  simp [Setup.put, within]

theorem write_of_no_field (x : Setup) {field : Nat} (v : Nat) (unknown : field = 0 ∨ 12 < field) :
    x.write field v = (.refusedField, x) := by
  rcases unknown with rfl | large
  · rfl
  · obtain ⟨n, rfl⟩ := Nat.exists_eq_add_of_le' large
    rfl

/-! ### SET at a ready channel -/

/-- SET at a ready channel is answered as R164 decides it. -/
theorem exec_set_of_ready {s : State} (ready : HostReady s) (field value : Word) :
    exec (.set field value) s =
      .next ((s.setField field value).after.respond (s.setField field value).status (s.setField field value).data) := by
  have run := (issue_of_ready ready (c := .set) (args := [field, value]) rfl).trans (run_of_ready ready _ _)
  exact congrArg Host.Outcome.next run

theorem exec_set_outside_setup {s : State} (ready : HostReady s) (outside : s.station.state ≠ .setup)
    (field value : Word) : exec (.set field value) s = .next (s.answered .refusedState []) := by
  rw [exec_set_of_ready ready]
  simp [State.setField, outside, State.refuse, respond_eq_answered ready.idle]

/-- In SETUP the write to the setup record gives both the status and the record that follows. -/
theorem exec_set_in_setup {s : State} (ready : HostReady s) (inside : s.station.state = .setup) {field value : Word}
    {st : Status} {x : Setup} (write : s.setup.write field.toNat value.toNat = (st, x)) :
    exec (.set field value) s = .next ((s.withStation { s.station with setup := x }).answered st []) := by
  rw [exec_set_of_ready ready]
  simp [State.setField, inside, write, respond_eq_answered, ready.idle]

/-- The setup record written back as it stands changes nothing. -/
theorem withStation_same_setup (s : State) : s.withStation { s.station with setup := s.setup } = s := rfl

/-- In SETUP a field with a range takes a value of the range, and a value outside it is refused. -/
theorem exec_set_of_range {s : State} (ready : HostReady s) (inside : s.station.state = .setup) {field value : Word}
    {low high : Nat} {x : Setup}
    (range : s.setup.write field.toNat value.toNat = s.setup.put (within low high value.toNat) x) :
    exec (.set field value) s =
      if low ≤ value.toNat ∧ value.toNat ≤ high then
        .next ((s.withStation { s.station with setup := x }).answered .done [])
      else .next (s.answered .refusedValue []) := by
  rw [put_within] at range
  split at range
  case isTrue fits => rw [if_pos fits, exec_set_in_setup ready inside range]
  case isFalse off => rw [if_neg off, exec_set_in_setup ready inside range, withStation_same_setup]

/-- LOOPBACK's flag, read off the word or off its value (Table 9.2). -/
theorem toNat_beq_one (value : Word) : (value.toNat == 1) = (value == 1) := by
  rw [Bool.eq_iff_iff, beq_iff_eq, beq_iff_eq, BitVec.toNat_eq]
  rfl

/-- Settles O27: the order of decision of R164, with the fields one by one at the end. -/
theorem setWritesOneField : Obligations.SetWritesOneField := by
  intro field value s ready
  refine ⟨fun outside => exec_set_outside_setup ready outside field value, fun inside unknown => ?_,
    fun inside id low high x row identifier => exec_set_of_range ready inside ?_⟩
  · have off_table : field.toNat = 0 ∨ 12 < field.toNat := unknown.imp_left (congrArg BitVec.toNat)
    rw [exec_set_in_setup ready inside (write_of_no_field s.setup value.toNat off_table), withStation_same_setup]
  · rw [identifier]
    simp only [List.mem_cons, List.not_mem_nil, or_false, Prod.mk.injEq, ← toNat_beq_one] at row
    obtain ⟨rfl, rfl, rfl, rfl⟩ | ⟨rfl, rfl, rfl, rfl⟩ | ⟨rfl, rfl, rfl, rfl⟩ | ⟨rfl, rfl, rfl, rfl⟩ |
      ⟨rfl, rfl, rfl, rfl⟩ | ⟨rfl, rfl, rfl, rfl⟩ | ⟨rfl, rfl, rfl, rfl⟩ | ⟨rfl, rfl, rfl, rfl⟩ |
      ⟨rfl, rfl, rfl, rfl⟩ | ⟨rfl, rfl, rfl, rfl⟩ | ⟨rfl, rfl, rfl, rfl⟩ | ⟨rfl, rfl, rfl, rfl⟩ := row
    all_goals rfl

end Sys2Proof.Machine
end

section
/-! What a step is, which blocks each command may change, and the state that a reset leaves (R160 to R162). -/

open Sys2Proof

namespace Sys2Proof.Machine

set_option Elab.async false

/-! ### A step and its command -/

/-- Settles O1: the queue's front is taken off before the command is executed. -/
theorem stepTakesFrontCommand : Obligations.StepTakesFrontCommand :=
  ⟨fun _ _ _ => rfl, fun s empty => by simp [step, empty]⟩

/-- A step that answers is the idle one, or the front command's. -/
theorem step_cases {s t : State} (h : step s = .next t) :
    t = s ∨ ∃ c rest, exec c (s.withPending rest) = .next t := by
  unfold step at h
  split at h
  · injection h with h
    exact .inl h.symm
  · rename_i c rest _
    exact .inr ⟨c, rest, h⟩

/-- What every command keeps, every step keeps, provided that the waiting commands do not matter to it. -/
theorem step_keeps {P I : State → Prop} (queue : ∀ s l, P s → P (s.withPending l)) (idle : ∀ s, P s → I s)
    (command : ∀ c s t, exec c s = .next t → P s → I t) {s t : State} (h : step s = .next t) (p : P s) : I t := by
  obtain rfl | ⟨c, rest, h⟩ := step_cases h
  · exact idle _ p
  · exact command c _ t h (queue s rest p)

/-! ### The state that a reset leaves -/

theorem ctx_contextsAtReset (stn : Station) (e : Epoch) (o : Station) :
    (contextsAtReset stn e)[o.toNat]'o.isLt = if o = stn then Context.ownAt e else Context.unsynced := by
  by_cases h : o = stn
  · subst h
    simp [contextsAtReset]
  · have h' : stn.toNat ≠ o.toNat := fun k => h (BitVec.eq_of_toNat_eq k.symm)
    simp [contextsAtReset, h, h']

/-- Every block but Station Control's setup record and straps, the Event Unit's mask and priority, RD and the line as either
reset leaves it, the own epoch being `e`. -/
structure Fresh (t : State) (e : Epoch) : Prop where
  store : t.store = Store.purged
  contexts : t.contexts = contextsAtReset t.stn e
  pool : t.pool = TrackerPool.atReset
  duties : t.duties = DutyPool.atReset
  delivery : t.delivery = Delivery.atReset
  submission : t.submission = Submission.atReset e
  sched : t.sched = Scheduler.atReset
  lineIdle : t.trunk.lineIdle = false
  rx : t.trunk.rx = RxPath.at .off
  tx : t.trunk.tx = none
  state : t.station.state = .setup ∨ t.station.state = .ready
  mute : t.station.muteReason = none
  listen : t.station.listenTimer = none
  held : t.station.mrst = true → t.station.state = .setup
  control : t.control = Control.atReset
  flags : t.events.flags = 0
  counters : t.counters = Counters.zero
  rlast : t.out.rlast = false

namespace Fresh

variable {t : State} {e : Epoch}

theorem ctx (f : Fresh t e) (o : Station) : t.ctx o = if o = t.stn then Context.ownAt e else Context.unsynced := by
  simp only [State.ctx, f.contexts, ctx_contextsAtReset]

theorem tracker (f : Fresh t e) (i : Fin 8) : t.tracker i = Tracker.atReset := by
  simp [State.tracker, f.pool, TrackerPool.atReset]

theorem duty (f : Fresh t e) (d : Fin 16) : t.duty d = none := by
  simp [State.duty, f.duties, DutyPool.atReset]

/-- With an almost-full offset in its range the whole of what the resets leave is there. -/
theorem cleared (f : Fresh t e) (offset : t.setup.dqAfOffset ≤ 64) : Cleared t e where
  store := f.store
  ownFree := by simp [State.ownFree, Store.ownFree, Store.reservedCells, f.store, Store.purged]
  peerFree := by simp [State.peerFree, Store.peerFree, f.store, Store.purged, Config.cells]
  peers o peer := by rw [f.ctx, if_neg peer]; rfl
  own := by rw [f.ctx, if_pos rfl]; rfl
  trackers i := by rw [f.tracker]; exact ⟨rfl, rfl, rfl, rfl⟩
  requests := by rw [f.pool]; rfl
  duties := f.duty
  eligible := by rw [f.duties]; rfl
  delivery := f.delivery
  submission := by rw [f.submission]; exact ⟨rfl, rfl, rfl, rfl, rfl, rfl⟩
  sched := f.sched
  trunk := by rw [f.rx]; exact ⟨f.lineIdle, rfl, rfl, f.tx⟩
  control := f.control
  flags := f.flags
  counters := by rw [f.counters]; rfl
  stopped := ⟨f.listen, f.mute⟩
  lines := by
    have room : 1 ≤ 128 - t.setup.dqAfOffset := by omega
    simp [State.rval, State.dqAe, State.dqAf, State.alertHi, State.alertLo, f.delivery, Delivery.atReset, f.flags,
      f.rlast, Config.deliverySize]
    omega

theorem modeSound (f : Fresh t e) : ModeSound t := by
  have off : t.trunk.rx.path = .off := by rw [f.rx]; rfl
  have outside : t.station.state ≠ .muted ∧ t.station.state ≠ .listening ∧ t.station.state ≠ .active := by
    rcases f.state with h | h <;> simp [h]
  exact
    { mute := by simp [f.mute, outside.1]
      listen := by simp [f.listen, outside.2.1]
      path := by simp [off, f.state]
      commitment := by simp [f.sched, Scheduler.atReset]
      holdoff := by simp [f.sched, Scheduler.atReset]
      holdoffActive := by simp [f.sched, Scheduler.atReset]
      quiet := by simp [f.sched, Scheduler.atReset]
      beacon := by simp [f.sched, Scheduler.atReset]
      reading := by simp [off, f.sched, Scheduler.atReset]
      frame := by simp [f.tx, f.sched, Scheduler.atReset]
      abandons := by simp [f.sched, Scheduler.atReset]
      held := f.held }

theorem storeSound (f : Fresh t e) (share : 8 ≤ t.setup.ownShare ∧ t.setup.ownShare ≤ 512) : StoreSound t where
  keys := by simp [f.store, Store.purged]
  own := by simp [f.store, Store.purged]
  peer := by simp [f.store, Store.purged]
  ownRoom := by simp [f.store, Store.purged, Store.reservedCells]
  peerRoom := by simp [f.store, Store.purged]
  share := share
  setupEmpty _ := f.store

theorem not_isSynced (f : Fresh t e) (o : Station) : (t.ctx o).isSynced = false := by
  rw [f.ctx]
  split <;> rfl

theorem contextsSound (f : Fresh t e) : ContextsSound t where
  ownState o := by
    rw [f.ctx]
    split <;> simp_all [Context.ownAt, Context.unsynced]
  unsynced o := by
    rw [f.ctx]
    split <;> simp [Context.ownAt, Context.unsynced]
  bounded o synced := by simp [f.not_isSynced] at synced
  due := by simp [f.store, Store.purged]

theorem gapsDecided (f : Fresh t e) : GapsDecided t := fun o synced => by simp [f.not_isSynced] at synced

theorem trackersSound (f : Fresh t e) : TrackersSound t where
  consistent i := by rw [f.tracker]; exact ⟨rfl, rfl⟩
  single i := by simp [f.tracker, Tracker.atReset]
  held o := by
    simp only [f.tracker, Tracker.atReset, ne_eq, not_true, false_and, exists_false, iff_false]
    rw [f.ctx]
    split <;> simp [Context.ownAt, Context.unsynced]
  requestsNodup := by simp [f.pool, TrackerPool.atReset]
  requests i := by rw [f.tracker]; simp [f.pool, TrackerPool.atReset, Tracker.atReset]
  activeOnly _ i := by rw [f.tracker]; rfl

theorem runsCurrent (f : Fresh t e) : RunsCurrent t where
  epoch i := by simp [f.tracker, Tracker.atReset]
  synced i := by simp [f.tracker, Tracker.atReset]
  run i := by simp [f.tracker, Tracker.atReset]
  served active := by rcases f.state with h | h <;> simp [h] at active

theorem submissionSound (f : Fresh t e) : SubmissionSound t where
  consecutive := by simp [f.submission, Submission.atReset]
  nextSeq := by simp [f.submission, Submission.atReset]
  room := by simp [f.submission, Submission.atReset]
  roomKept := by simp [f.submission, Submission.atReset]
  headOnly := by simp [f.submission, Submission.atReset]
  setupEmpty := by simp [f.submission, Submission.atReset]
  reserved := by simp [f.submission, Submission.atReset, f.store, Store.purged]

theorem dutiesSound (f : Fresh t e) : DutiesSound t where
  timers := by simp [f.duty]
  eligibleNodup := by simp [f.duties, DutyPool.atReset]
  eligible := by simp [f.duty, f.duties, DutyPool.atReset]
  single := by simp [f.duty]
  pinned := by simp [f.duty]
  queuePinned := by simp [f.submission, Submission.atReset]
  apart := by simp [f.duty]
  activeOnly _ := f.duty

theorem ownContextSound (f : Fresh t e) : OwnContextSound t := by
  have own : t.ctx t.stn = Context.ownAt e := by rw [f.ctx, if_pos rfl]
  exact
    { state := by rw [own]; rfl
      epoch := by rw [own, f.submission]; rfl
      floor := by rw [own]; rfl
      horizon := fun _ => by simp [own, f.submission, Context.ownAt, Submission.atReset]
      deliverable := by simp [own, f.submission, Context.ownAt, Context.unsynced, Submission.atReset, offset]
      dueCount := by simp [own, f.submission, f.store, Context.ownAt, Context.unsynced, Submission.atReset, offset, Store.purged]
      off := by simp [own, f.store, Context.ownAt, Context.unsynced, Store.purged]
      setupFresh := by simp [own, f.submission, Context.ownAt, Context.unsynced, Submission.atReset] }

theorem deliverySound (f : Fresh t e) : DeliverySound t where
  size := by simp [f.delivery, Delivery.atReset]
  handed := by simp [f.delivery, Delivery.atReset, Delivery.messageKeys]
  single := by simp [f.delivery, Delivery.atReset, Delivery.messageKeys]
  exclusive := by simp [f.store, Store.purged]

theorem payloadsSound (f : Fresh t e) : PayloadsSound t where
  entries := by simp [f.store, Store.purged]
  assembling := by simp [f.submission, Submission.atReset]

theorem wireSound (f : Fresh t e) : WireSound t where
  replay := by simp [f.duty]
  request := by simp [f.tracker, Tracker.atReset]
  data := by simp [f.submission, Submission.atReset]
  heldReplay := by simp [f.sched, Scheduler.atReset]
  heldRequest := by simp [f.sched, Scheduler.atReset]
  heldData := by simp [f.sched, Scheduler.atReset]
  heldBeacon := by simp [f.sched, Scheduler.atReset]

theorem parserSound (f : Fresh t e) : ParserSound t := fun c args collecting => by
  simp [f.control, Control.atReset] at collecting

end Fresh

/-- The defaults of Table 9.2 lie in the ranges of Table 9.2. -/
theorem setupSound_of_defaults {t : State} (h : t.setup = Setup.defaults) : SetupSound t := by
  constructor <;> simp [h, Setup.defaults]

/-! ### The three resets -/

/-- MASTER_RESET: all but the straps, RD's and the queue's values. -/
theorem exec_masterReset (s : State) : ∃ t, exec .masterReset s = .next t ∧ Fresh t 0 ∧
    t.station = StationControl.atReset s.stn s.station.rate true ∧ t.events = Events.atReset ∧ t.pending = s.pending :=
  ⟨_, rfl, by constructor <;> first | rfl | exact .inl rfl | exact fun _ => rfl, rfl, rfl, rfl⟩

/-- MRST_RELEASE with MRST asserted. -/
theorem exec_mrstRelease {s : State} (held : s.station.mrst = true) (stn : Station) (rate : BitVec 2) :
    ∃ t, exec (.mrstRelease stn rate) s = .next t ∧ Fresh t 0 ∧ t.station = StationControl.atReset stn rate false ∧
      t.events = Events.atReset ∧ t.pending = s.pending :=
  ⟨_, if_pos held, by constructor <;> first | rfl | exact .inl rfl | exact fun _ => rfl, rfl, rfl, rfl⟩

theorem exec_mrstRelease_released {s : State} (released : s.station.mrst = false) (stn : Station) (rate : BitVec 2) :
    exec (.mrstRelease stn rate) s = .next s := if_neg (by simp [released])

/-- PARTIAL_RESET with MRST negated. -/
theorem exec_partialReset {s : State} (released : s.station.mrst = false) :
    ∃ t, exec .partialReset s = .next t ∧ Fresh t (s.submission.ownEpoch + 1) ∧
      t.station = { s.station with state := .ready, muteReason := none, listenTimer := none } ∧
      t.events = { s.events with flags := 0 } ∧ t.pending = s.pending :=
  ⟨_, if_neg (by simp [released]),
    by constructor <;> first | rfl | exact .inr rfl | exact fun h => absurd h (by simp [released]), rfl, rfl, rfl⟩

theorem exec_partialReset_held {s : State} (held : s.station.mrst = true) : exec .partialReset s = .next s := if_pos held

theorem wrdy_of_setup {t : State} (h : t.station.state = .setup) : t.wrdy = false := by simp [State.wrdy, h]

/-- Settles O4. -/
theorem mrstReleaseStarts : Obligations.MrstReleaseStarts := by
  intro stn rate s
  refine ⟨fun held => ?_, fun released => exec_mrstRelease_released released stn rate⟩
  obtain ⟨t, run, fresh, station, events, pending⟩ := exec_mrstRelease held stn rate
  have offset : t.setup.dqAfOffset ≤ 64 := by simp [State.setup, station, StationControl.atReset, Setup.defaults]
  exact ⟨t, run, fresh.cleared offset, station, events, wrdy_of_setup (by rw [station]; rfl), pending⟩

/-- Settles O5: WRDY is high, since a fresh own share of at least 8 cells is FREE. -/
theorem partialResetLeaves : Obligations.PartialResetLeaves := by
  intro s
  refine ⟨fun released sound => ?_, exec_partialReset_held⟩
  obtain ⟨t, run, fresh, station, events, pending⟩ := exec_partialReset released
  have setup : t.setup = s.setup := by rw [State.setup, station]; rfl
  have cleared := fresh.cleared (by rw [setup]; exact sound.dqAfOffset)
  have room := sound.ownShare.1
  have high : t.wrdy = true := by
    simp [State.wrdy, station, Submission.inProgress, cleared.submission, State.ownClaimable, Store.ownClaimable,
      Store.ownFree, Store.reservedCells, cleared.store, setup, Config.dataQueueSize]
    omega
  exact ⟨t, run, cleared, station, events, high, pending⟩

/-- While MRST is asserted the host's words write nothing (R161). -/
theorem controlWord_held {s : State} (held : s.station.mrst = true) (w : Word) (wend : Bool) : s.controlWord w wend = s :=
  if_pos held

theorem issue_held {s : State} (held : s.station.mrst = true) (c : Command) (args : List Word) : s.issue c args = s := by
  unfold State.issue
  induction withWend (s.wordsLeft c args) with
  | nil => rfl
  | cons w ws ih => rw [List.foldl_cons, controlWord_held held, ih]

/-- The command and the arguments that a host command's own row has the host write. -/
def hostWords : Instr → Option (Command × List Word)
  | .set field value => some (.set, [field, value])
  | .join => some (.join, [])
  | .leave => some (.leave, [])
  | .recover => some (.recover, [])
  | .status => some (.status, [])
  | .readContext origin => some (.readContext, [origin])
  | .readCounters => some (.readCounters, [])
  | .clearCounters => some (.clearCounters, [])
  | .readEvents => some (.readEvents, [])
  | .ackEvents mask => some (.ackEvents, [mask])
  | .setEventMask mask => some (.setEventMask, [mask])
  | .setEventPriority mask => some (.setEventPriority, [mask])
  | .discardHead => some (.discardHead, [])
  | _ => none

/-- A host command's own row writes the command's words, as many as it has arguments, and does nothing else. -/
theorem exec_host {c : Instr} (host : isHostCommand c = true) :
    ∃ cmd args, hostWords c = some (cmd, args) ∧ args.length = cmd.argCount ∧
      ∀ s, exec c s = .next (s.issue cmd args) := by
  cases c <;> first
    | exact absurd host Bool.false_ne_true
    | exact ⟨_, _, rfl, rfl, fun _ => rfl⟩

/-- Settles O3. -/
theorem masterResetLeaves : Obligations.MasterResetLeaves := by
  refine ⟨fun s => ?_, fun s held => ⟨fun w wend => ⟨if_pos held, ?_⟩, fun c host => ?_, if_pos held, if_pos held⟩⟩
  · obtain ⟨t, run, fresh, station, events, pending⟩ := exec_masterReset s
    have offset : t.setup.dqAfOffset ≤ 64 := by simp [State.setup, station, StationControl.atReset, Setup.defaults]
    exact ⟨t, run, fresh.cleared offset, station, events, wrdy_of_setup (by rw [station]; rfl), pending⟩
  · exact congrArg Host.Outcome.next (controlWord_held held w wend)
  · obtain ⟨cmd, args, -, -, run⟩ := exec_host host
    rw [run, issue_held held]

theorem fresh_reset : Fresh State.reset 0 := by
  constructor <;> first | rfl | exact .inl rfl | exact fun _ => rfl

/-- Settles O7: the master-reset state is fresh, with the defaults in its setup record. -/
theorem resetStateIsSound : Obligations.ResetStateIsSound :=
  ⟨fresh_reset.modeSound, setupSound_of_defaults rfl, fresh_reset.storeSound (by decide), fresh_reset.contextsSound,
    fresh_reset.gapsDecided, fresh_reset.trackersSound, fresh_reset.runsCurrent, fresh_reset.submissionSound,
    fresh_reset.dutiesSound, fresh_reset.ownContextSound, fresh_reset.deliverySound, fresh_reset.payloadsSound,
    fresh_reset.wireSound, fresh_reset.parserSound⟩

end Sys2Proof.Machine
end

section
/-! Which blocks each command may change: `exec_only`, and what a host's control words come to (R174, R178). -/

open Sys2Proof

namespace Sys2Proof.Machine

set_option Elab.async false

/-! ### Frames of the operations that one command uses -/

theorem setAsm_only (s : State) (a : AssemblyState) : Only [.submission] s (s.setAsm a) := withSubmission_only _ _

theorem wordZero_only (s : State) (w : Word) (wend : Bool) :
    Only [.store, .pool, .sched, .events, .submission] s (s.wordZero w wend) := by
  unfold State.wordZero
  split
  · exact (raise_only _ _).mono
  · split
    · exact ((raise_only _ _).then (setAsm_only _ _)).mono
    · split
      · exact ((applyStore_only _ _).then (withSubmission_only _ _)).mono
      · exact Only.refl _ _

theorem completeMessage_only (s : State) : Only [.store, .pool, .sched, .events, .submission] s s.completeMessage := by
  unfold State.completeMessage
  have claim := (applyStore_only s (s.store.complete s.nextKey s.completionPins).2).then (setAsm_only _ .idle)
  dsimp only
  split
  · exact (claim.then (withSubmission_only _ _)).mono
  · exact (claim.then (raise_only _ _)).mono
  · exact claim.mono

theorem payloadWord_only (s : State) (w : Word) (wend : Bool) :
    Only [.store, .pool, .sched, .events, .submission] s (s.payloadWord w wend) := by
  unfold State.payloadWord
  have written := (withStore_only s (s.store.writeReserved (s.submission.bytesOf w))).then (withSubmission_only _
    { s.submission with taken := s.submission.taken + 1 })
  dsimp only
  split
  · split
    · exact (written.then (rejectSubmission_only _ _)).mono
    · exact written.mono
  · split
    · exact (written.then (completeMessage_only _)).mono
    · exact (written.then (setAsm_only _ _)).mono

theorem takeDataWord_only (s : State) (w : Word) (wend : Bool) :
    Only [.store, .pool, .sched, .events, .submission] s (s.takeDataWord w wend) := by
  unfold State.takeDataWord
  split
  · exact wordZero_only _ _ _
  · exact payloadWord_only _ _ _
  · exact rejectSubmission_only _ _
  · split
    · exact (setAsm_only _ _).mono
    · exact Only.refl _ _

theorem enqueue_only (s : State) (r : Record) : Only [.delivery] s (s.enqueue r) := withDelivery_only _ _

theorem serve_only (s : State) (o : Station) :
    Only [.delivery, .store, .pool, .sched, .contexts, .events, .counters] s (s.serve o) := by
  unfold State.serve
  have pointer := withDelivery_only s { s.delivery with lastServed := o }
  dsimp only
  split
  · exact (((pointer.then (applyStore_only _ _)).then (enqueue_only _ _)).then (advance_only _ _ _)).mono
  · exact ((((pointer.then (enqueue_only _ _)).then (raise_only _ _)).then (addCount_only _ _ _)).then
      (advance_only _ _ _)).mono
  · exact (((pointer.then (enqueue_only _ _)).then (raise_only _ _)).then (advanceRestart_only _ _)).mono
  · exact Only.refl _ _

theorem putOut_only (s : State) (w : Word) (last : Bool) : Only [.out] s (s.putOut w last) := withOut_only _ _

theorem takeDelivery_only (s : State) : Only [.out, .events, .delivery, .store, .pool, .sched] s s.takeDelivery := by
  unfold State.takeDelivery
  split
  · exact ((putOut_only _ _ _).then (raise_only _ _)).mono
  · dsimp only
    split
    · exact ((putOut_only _ _ _).then (dropHead_only _)).mono
    · exact ((putOut_only _ _ _).then (withDelivery_only _ _)).mono

theorem takeResponse_only (s : State) : Only [.out, .events, .control] s s.takeResponse := by
  unfold State.takeResponse
  split
  · exact ((putOut_only _ _ _).then (raise_only _ _)).mono
  · dsimp only
    split
    · exact ((putOut_only _ _ _).then (withControl_only _ _)).mono
    · exact ((putOut_only _ _ _).then (withControl_only _ _)).mono

theorem takeRequest_only {s t : State} {i : Fin 8} (h : s.takeRequest i = some t) : Only [.pool] s t := by
  unfold State.takeRequest at h
  dsimp only at h
  split at h
  · injection h with h
    exact h ▸ setTracker_only _ _ _
  · cases h

theorem takeReplay_only {s t : State} {d : Fin 16} {k : Key} (h : s.takeReplay d = some (k, t)) : Only [.duties] s t := by
  unfold State.takeReplay at h
  split at h
  · cases h
  · split at h
    · injection h with h
      injection h with _ h
      exact h ▸ setDuty_only _ _ _
    · cases h

theorem takeData_only {s t : State} {k : Key} (h : s.takeData = some (k, t)) : Only [.submission] s t := by
  unfold State.takeData at h
  split at h
  · cases h
  · split at h
    · injection h with h
      injection h with _ h
      exact h ▸ withSubmission_only _ _
    · cases h

theorem takeFrame_only {s t : State} {d : DutyRef} {f : Frame} (h : s.takeFrame d = some (f, t)) :
    Only [.duties, .pool, .submission] s t := by
  cases d with
  | replay d =>
    obtain ⟨⟨k, u⟩, take, eq⟩ := Option.map_eq_some_iff.mp h
    cases eq
    exact (takeReplay_only take).mono
  | gapreq i =>
    obtain ⟨u, take, eq⟩ := Option.map_eq_some_iff.mp h
    cases eq
    exact (takeRequest_only take).mono
  | data =>
    obtain ⟨⟨k, u⟩, take, eq⟩ := Option.map_eq_some_iff.mp h
    cases eq
    exact (takeData_only take).mono
  | beacon =>
    simp only [State.takeFrame] at h
    split at h
    · cases h
      exact Only.refl _ _
    · cases h

theorem releaseCommitment_only (s : State) : Only [.sched] s s.releaseCommitment := withSched_only _ _

theorem startCommitted_only (s : State) (c : Commitment) :
    Only [.duties, .pool, .submission, .trunk, .sched] s (s.startCommitted c) := by
  unfold State.startCommitted
  split
  · exact (releaseCommitment_only _).mono
  · rename_i r take
    exact (((takeFrame_only (t := r.2) take).then (withTrunk_only _ _)).then (withSched_only _ _)).mono

theorem commit_only (s : State) (c : Commitment) :
    Only [.duties, .pool, .submission, .trunk, .sched] s (s.commit c) := by
  unfold State.commit
  dsimp only
  split
  · exact ((withSched_only _ _).then (startCommitted_only _ _)).mono
  · exact (withSched_only _ _).mono

theorem frameEnds_only (s : State) (c : Commitment) :
    Only [.store, .pool, .sched, .duties, .counters, .submission, .contexts, .trunk, .station] s (s.frameEnds c) :=
  ((((withTrunk_only s { s.trunk with burst := false, rx := RxPath.at .waiting, tx := none }).then
    (tellSent_only _ _)).then (withSched_only _ _)).then (transmitterFree_only _)).mono

theorem startJam_only (s : State) : Only [.counters, .trunk] s s.startJam := (count_only _ _).then (withTrunk_only _ _)

theorem noteAbandon_only (s : State) : Only [.counters, .events, .sched] s s.noteAbandon :=
  ((count_only _ _).then (raise_only _ _)).then (withSched_only _ _)

theorem abandon_only (s : State) (d : DutyRef) :
    Only [.store, .pool, .sched, .duties, .counters, .submission, .contexts, .station, .events] s (s.abandon d) := by
  unfold State.abandon
  have told := ((tellAbandoned_only s d).then (noteAbandon_only _)).then (withSched_only _
    { (s.tellAbandoned d).noteAbandon.sched with state := .jamming, commitment := none })
  dsimp only
  split
  · exact (told.then (muteRequest_only _)).mono
  · exact told.mono

theorem collides_only (s : State) (c : Commitment) :
    Only [.store, .pool, .sched, .duties, .counters, .submission, .contexts, .trunk, .station, .events] s
      (s.collides c) := by
  unfold State.collides
  split
  · exact (((startJam_only _).then (tellCollision_only _ _)).then (withSched_only _ _)).mono
  · exact ((startJam_only _).then (abandon_only _ _)).mono

theorem readBackCells_only (s : State) (read : List (Option BurstCell)) :
    Only [.store, .pool, .sched, .duties, .counters, .submission, .contexts, .trunk, .station, .events] s
      (s.readBackCells read) := by
  unfold State.readBackCells
  split
  · split
    · exact (frameEnds_only _ _).mono
    · exact collides_only _ _
    · exact Only.refl _ _
  · exact Only.refl _ _

theorem defer_only (s : State) : Only [.sched] s s.defer := by
  unfold State.defer
  split
  · exact releaseCommitment_only _
  · exact Only.refl _ _

theorem frameError_only (s : State) : Only [.counters, .events, .station] s s.frameError := by
  unfold State.frameError
  have noted := (count_only s .rxError).then (raise_only _ .rxError)
  dsimp only
  split
  · exact (noted.then (startListenTimer_only _)).mono
  · exact noted.mono

theorem clash_only (s : State) :
    Only [.station, .events, .store, .pool, .sched, .duties, .contexts] s s.clash := by
  unfold State.clash
  split
  · exact ((raise_only _ _).then (startListenTimer_only _)).mono
  · exact ((raise_only _ _).then (enterMuted_only _ _)).mono
  · exact (raise_only _ _).mono
  · exact Only.refl _ _
  · exact Only.refl _ _
  · exact Only.refl _ _

theorem goodFrame_only (s : State) (f : Frame) :
    Only [.store, .pool, .sched, .duties, .counters, .contexts, .station, .events] s (s.goodFrame f) := by
  unfold State.goodFrame
  split
  · exact (clash_only _).mono
  · exact (((count_only _ _).then (heard_only _ _)).then (distribute_only _ _)).mono

theorem takeDecision_only (s : State) (d : Decision) :
    Only [.store, .pool, .sched, .duties, .counters, .contexts, .station, .events] s (s.takeDecision d) := by
  unfold State.takeDecision
  split
  · exact Only.refl _ _
  · exact (frameError_only _).mono
  · exact goodFrame_only _ _

theorem burstOver_only (s : State) (p : PathState) : Only [.trunk] s (s.burstOver p) := withTrunk_only _ _

theorem burstEnds_only (s : State) (cells : List BurstCell) :
    Only [.store, .pool, .sched, .duties, .counters, .contexts, .trunk, .station, .events] s (s.burstEnds cells) := by
  unfold State.burstEnds
  split
  · exact Only.refl _ _
  · split
    · exact Only.refl _ _
    · exact (burstOver_only _ _).mono
    · exact ((burstOver_only _ _).then (takeDecision_only _ _)).mono

/-! ### The host's control words -/

theorem acceptJoin_only (s : State) : Only [.station, .trunk, .submission, .contexts] s s.acceptJoin := by
  unfold State.acceptJoin
  have listening := (withStation_only s
    { s.station with state := .listening, listenTimer := some s.setup.listenPeriod }).then (withTrunk_only _
    { s.trunk with rx := RxPath.at (if s.trunk.burst then .skip else .waiting) })
  dsimp only
  split
  · exact ((listening.then (withSubmission_only _ _)).then (setCtx_only _ _ _)).mono
  · exact (listening.then (startSilenceTimers_only _)).mono

theorem acceptLeave_only (s : State) :
    Only [.station, .trunk, .contexts, .store, .pool, .sched, .duties] s s.acceptLeave := by
  unfold State.acceptLeave
  split
  · exact ((withStation_only _ _).then (quitActive_only _)).mono
  · exact ((enterReady_only _).then (quitActive_only _)).mono

/-- The blocks that a command of the control channel may change by its effect (R178). -/
def Command.blocks : Command → List Block
  | .set => [.station]
  | .join => [.station, .trunk, .submission, .contexts]
  | .leave => [.station, .trunk, .contexts, .store, .pool, .sched, .duties]
  | .recover => [.station]
  | .clearCounters => [.counters]
  | .ackEvents => [.events]
  | .setEventMask => [.events]
  | .setEventPriority => [.events]
  | .discardHead => [.delivery, .store, .pool, .sched]
  | .status => []
  | .readContext => []
  | .readCounters => []
  | .readEvents => []

theorem execute_only (s : State) (c : Command) (args : List Word) : Only c.blocks s (s.execute c args).after := by
  cases c with
  | set =>
    simp only [State.execute, State.setField]
    split
    · exact withStation_only _ _
    · exact Only.refl _ _
  | join =>
    simp only [State.execute, State.joinTrunk]
    split
    · exact acceptJoin_only _
    · exact Only.refl _ _
  | leave =>
    simp only [State.execute, State.leaveTrunk]
    split
    · exact acceptLeave_only _
    · exact Only.refl _ _
  | recover =>
    simp only [State.execute, State.recoverStation]
    split
    · exact withStation_only _ _
    · exact Only.refl _ _
  | readContext =>
    simp only [State.execute, State.contextReply]
    split
    · exact Only.refl _ _
    · exact Only.refl _ _
  | discardHead =>
    simp only [State.execute, State.discard]
    split
    · exact Only.refl _ _
    · exact dropHead_only _
  | status => exact Only.refl _ _
  | readCounters => exact Only.refl _ _
  | readEvents => exact Only.refl _ _
  | clearCounters => exact withCounters_only _ _
  | ackEvents => exact withEvents_only _ _
  | setEventMask => exact withEvents_only _ _
  | setEventPriority => exact withEvents_only _ _

theorem respond_only (s : State) (st : Status) (data : List Word) : Only [.control] s (s.respond st data) :=
  withControl_only _ _

theorem setParser_only (s : State) (p : Parser) : Only [.control] s (s.setParser p) := withControl_only _ _

theorem malformed_only (s : State) (wend : Bool) : Only [.control] s (s.malformed wend) := by
  unfold State.malformed
  split
  · exact ((setParser_only _ _).then (respond_only _ _ _)).mono
  · exact setParser_only _ _

/-- What a control word comes to: it only moves the parser and the response buffer, PORT_MISUSE perhaps raised, or it
carries WEND and completes a command, whose effect and answer follow (R174, R175, R177, R178). -/
theorem controlWord_cases (s : State) (w : Word) (wend : Bool) :
    Only [.control, .events] s (s.controlWord w wend) ∧ (∀ e, s.isRaised e = true → (s.controlWord w wend).isRaised e = true) ∨
      s.station.mrst = false ∧ wend = true ∧ ∃ c args, s.controlWord w wend = s.run c args ∧
        ((s.control.parser = .idle ∧ w = c.word0 ∧ c.argCount = 0 ∧ args = []) ∨
          ∃ taken, s.control.parser = .collecting c taken ∧ args = taken ++ [w] ∧ c.argCount ≤ args.length) := by
  have parser {t : State} (h : Only [.control] s t) :
      Only [.control, .events] s t ∧ ∀ e, s.isRaised e = true → t.isRaised e = true :=
    ⟨h.mono, fun e raised => by rw [State.isRaised, h .events (by decide)]; exact raised⟩
  have misuse {t : State} (h : Only [.control] (s.raise .portMisuse) t) :
      Only [.control, .events] s t ∧ ∀ e, s.isRaised e = true → t.isRaised e = true :=
    ⟨((raise_only _ _).then h).mono, fun e raised => by
      rw [State.isRaised, h .events (by decide)]
      exact (State.isRaised_raise s .portMisuse e).trans (by simp [raised])⟩
  unfold State.controlWord
  split
  · exact .inl (parser (Only.refl _ _))
  · rename_i released
    have released : s.station.mrst = false := by simpa using released
    split
    · rename_i idle
      unfold State.commandWord0
      split
      · split
        · exact .inl (misuse (Only.refl _ _))
        · exact .inl (misuse (setParser_only _ _))
      · split
        · exact .inl (parser (malformed_only _ _))
        · rename_i c code
          have word : w = c.word0 := (beq_iff_eq.mp (List.find?_some (p := fun c : Command => c.word0 == w) (l := allCommands) code)).symm
          split
          · rename_i bare
            split
            · rename_i last
              exact .inr ⟨released, last, c, [], rfl, .inl ⟨idle, word, bare, rfl⟩⟩
            · exact .inl (parser (malformed_only _ _))
          · split
            · exact .inl (parser (malformed_only _ _))
            · exact .inl (parser (setParser_only _ _))
    · rename_i c args collecting
      unfold State.argumentWord
      split
      · split
        · exact .inl (parser (malformed_only _ _))
        · exact .inl (parser (setParser_only _ _))
      · rename_i full
        split
        · rename_i last
          refine .inr ⟨released, last, c, args ++ [w], rfl, .inr ⟨args, collecting, rfl, ?_⟩⟩
          simp
          omega
        · exact .inl (parser (malformed_only _ _))
    · exact .inl (parser (malformed_only _ _))
    · split
      · exact .inl (parser (setParser_only _ _))
      · exact .inl (parser (Only.refl _ _))

/-- A word without WEND completes no command. -/
theorem controlWord_more_only (s : State) (w : Word) : Only [.control, .events] s (s.controlWord w false) := by
  obtain ⟨only, -⟩ | ⟨-, last, -⟩ := controlWord_cases s w false
  · exact only
  · cases last

/-- A word without WEND leaves the parser busy, and with a command's words only when it was with them before or the word is its
word 0 (R174, R175). -/
theorem controlWord_more_parser {s : State} (released : s.station.mrst = false) (w : Word) :
    (s.controlWord w false).control.parser ≠ .idle ∧
      ∀ c taken, (s.controlWord w false).control.parser = .collecting c taken →
        (∃ before, s.control.parser = .collecting c before) ∨ s.control.parser = .idle ∧ w = c.word0 := by
  have rejecting (s : State) : (s.malformed false).control.parser = .rejecting := rfl
  simp only [State.controlWord, released, Bool.false_eq_true, if_false]
  split
  · rename_i idle
    unfold State.commandWord0
    split
    · simp [State.setParser]
    · split
      · simp [rejecting]
      · rename_i c code
        have word : w = c.word0 := (beq_iff_eq.mp
          (List.find?_some (p := fun c : Command => c.word0 == w) (l := allCommands) code)).symm
        split
        · simp [rejecting]
        · simp only [Bool.false_eq_true, if_false, State.setParser, State.withControl_control]
          refine ⟨nofun, fun c' taken h => .inr ⟨idle, ?_⟩⟩
          obtain ⟨rfl, -⟩ := Parser.collecting.inj h
          exact word
  · rename_i c taken collecting
    unfold State.argumentWord
    split
    · simp only [Bool.false_eq_true, if_false, State.setParser, State.withControl_control]
      refine ⟨nofun, fun c' _ h => .inl ⟨taken, ?_⟩⟩
      obtain ⟨rfl, -⟩ := Parser.collecting.inj h
      exact collecting
    · simp [rejecting]
  · simp [rejecting]
  · rename_i ignoring
    simp [ignoring]

/-- The parser is about to take the last word of command `c`: it has words of `c`, or the next word `w` is `c`'s word 0. -/
def Due (s : State) (c : Command) (w : Option Word) : Prop :=
  (∃ taken, s.control.parser = .collecting c taken) ∨ s.control.parser = .idle ∧ w = some c.word0

/-- The words of a host command before its last one move the parser alone; the last one carries WEND (R174). -/
theorem withWend_foldl {ws : List Word} (some_left : ws ≠ []) (s : State) :
    ∃ u w, Only [.control, .events] s u ∧ (∀ e, s.isRaised e = true → u.isRaised e = true) ∧
      (withWend ws).foldl (fun s x => s.controlWord x.1 x.2) s = u.controlWord w true ∧
      (s.station.mrst = false → ∀ c, Due u c (some w) → Due s c ws.head?) := by
  induction ws generalizing s with
  | nil => exact absurd rfl some_left
  | cons w ws ih =>
    cases ws with
    | nil => exact ⟨s, w, Only.refl _ _, fun _ h => h, rfl, fun _ _ h => h⟩
    | cons v ws =>
      obtain ⟨u, x, only, raised, run, due⟩ := ih (by simp) (s.controlWord w false)
      obtain ⟨first, stays⟩ | ⟨-, last, -⟩ := controlWord_cases s w false
      · refine ⟨u, x, (first.then only).mono (by decide), fun e h => raised e (stays e h), run, fun released c h => ?_⟩
        obtain ⟨busy, words⟩ := controlWord_more_parser released w
        have still : (s.controlWord w false).station.mrst = false := by rw [first .station (by decide)]; exact released
        obtain ⟨taken, collecting⟩ | ⟨idle, -⟩ := due still c h
        · exact (words c taken collecting).imp_right fun ⟨idle, word⟩ => ⟨idle, congrArg some word⟩
        · exact absurd idle busy
      · cases last

theorem wordsLeft_ne_nil (s : State) (c : Command) (args : List Word) : s.wordsLeft c args ≠ [] := by
  unfold State.wordsLeft
  split
  · split
    · rename_i taken _ fits
      exact List.ne_nil_of_length_pos (by simp; omega)
    · simp
  · simp

/-- What a host command's row comes to: what its words come to one by one, only the last completing a command, which is the
row's own unless the parser was with another command's words. -/
theorem issue_cases (s : State) (c : Command) (args : List Word) :
    Only [.control, .events] s (s.issue c args) ∧ (∀ e, s.isRaised e = true → (s.issue c args).isRaised e = true) ∨
      ∃ u cmd given, Only [.control, .events] s u ∧ (∀ e, s.isRaised e = true → u.isRaised e = true) ∧
        s.station.mrst = false ∧ s.issue c args = u.run cmd given ∧
        (cmd = c ∨ ∃ taken, s.control.parser = .collecting cmd taken) := by
  obtain ⟨u, w, only, raised, run, due⟩ := withWend_foldl (wordsLeft_ne_nil s c args) s
  have issue : s.issue c args = u.controlWord w true := run
  rw [issue]
  obtain ⟨last, stays⟩ | ⟨released, -, cmd, given, run, which⟩ := controlWord_cases u w true
  · exact .inl ⟨(only.then last).mono (by decide), fun e h => stays e (raised e h)⟩
  · have there : s.station.mrst = false := by rw [← only .station (by decide)]; exact released
    refine .inr ⟨u, cmd, given, only, raised, there, run, ?_⟩
    have next : Due u cmd (some w) := by
      obtain ⟨idle, word, -, -⟩ | ⟨taken, collecting, -, -⟩ := which
      · exact .inr ⟨idle, congrArg some word⟩
      · exact .inl ⟨taken, collecting⟩
    obtain collecting | ⟨idle, word⟩ := due there cmd next
    · exact .inr collecting
    · left
      have all_left : s.wordsLeft c args = c.word0 :: args := by simp [State.wordsLeft, idle]
      rw [all_left, List.head?_cons, Option.some.injEq] at word
      exact Option.some.inj (by rw [← commandOf_word0 cmd, ← word, commandOf_word0])

/-- A command written on the control channel, by its words or by its own row. -/
def isHostWord (c : Instr) : Bool :=
  isHostCommand c || match c with
    | .controlWord _ _ => true
    | _ => false

theorem isHostWord_of_host {c : Instr} (h : isHostCommand c = true) : isHostWord c = true := by simp [isHostWord, h]

/-- Command `cmd` is the one that `c` completes in state `s`: `c` is its own row, or its word 0 with WEND at an idle parser, or a
last word for the parser that is with `cmd`'s words. -/
def Completes (s : State) (c : Instr) (cmd : Command) : Prop :=
  (∃ args, hostWords c = some (cmd, args)) ∨ cmd.argCount = 0 ∧ c = .controlWord cmd.word0 true ∨
    (∃ taken, s.control.parser = .collecting cmd taken) ∧ ((∃ w, c = .controlWord w true) ∨ isHostCommand c = true)

/-- What a word on the control channel or a host command's row comes to: the parser, the response buffer and PORT_MISUSE aside,
either nothing or the effect of one command. -/
theorem exec_hostWord_cases {c : Instr} (host : isHostWord c = true) {s t : State} (h : exec c s = .next t) :
    Only [.control, .events] s t ∧ (∀ e, s.isRaised e = true → t.isRaised e = true) ∨
      ∃ u cmd args st data, Only [.control, .events] s u ∧ (∀ e, s.isRaised e = true → u.isRaised e = true) ∧
        s.station.mrst = false ∧ t = (u.execute cmd args).after.respond st data ∧ Completes s c cmd := by
  have ran {u : State} (only : Only [.control, .events] s u) (raised : ∀ e, s.isRaised e = true → u.isRaised e = true)
      (released : s.station.mrst = false) {cmd : Command} {args : List Word} (run : t = u.run cmd args)
      (completes : Completes s c cmd) : ∃ u cmd args st data, Only [.control, .events] s u ∧
        (∀ e, s.isRaised e = true → u.isRaised e = true) ∧ s.station.mrst = false ∧
        t = (u.execute cmd args).after.respond st data ∧ Completes s c cmd :=
    ⟨u.setParser .idle, cmd, args, _, _, (only.then (setParser_only u .idle)).mono (by decide), raised, released, run,
      completes⟩
  by_cases row : isHostCommand c = true
  · obtain ⟨cmd, args, words, -, run⟩ := exec_host row
    rw [run] at h
    injection h with h
    subst h
    obtain only | ⟨u, cmd', given, only, raised, released, run, which⟩ := issue_cases s cmd args
    · exact .inl only
    · refine .inr (ran only raised released run ?_)
      rcases which with rfl | collecting
      · exact .inl ⟨args, words⟩
      · exact .inr (.inr ⟨collecting, .inr row⟩)
  · cases c with
    | controlWord w wend =>
      injection h with h
      subst h
      obtain only | ⟨released, last, cmd, args, run, which⟩ := controlWord_cases s w wend
      · exact .inl only
      · refine .inr (ran (Only.refl _ _) (fun _ h => h) released run ?_)
        obtain ⟨-, word, bare, -⟩ | ⟨taken, collecting, -, -⟩ := which
        · exact .inr (.inl ⟨bare, by rw [word, last]⟩)
        · exact .inr (.inr ⟨⟨taken, collecting⟩, .inl ⟨w, by rw [last]⟩⟩)
    | _ => exact absurd host (by simp_all [isHostWord, isHostCommand])

/-! ### Every command -/

/-- All blocks but the queue of waiting commands. -/
def resetBlocks : List Block :=
  [.store, .contexts, .pool, .duties, .delivery, .submission, .sched, .trunk, .station, .control, .events, .counters,
    .out]

/-- All blocks but the queue of waiting commands and the read side's pins. -/
def hostBlocks : List Block :=
  [.store, .contexts, .pool, .duties, .delivery, .submission, .sched, .trunk, .station, .control, .events, .counters]

/-- The blocks that a command may change. -/
def blocks : Instr → List Block
  | .masterReset | .mrstRelease _ _ | .partialReset => resetBlocks
  | .dataWord _ _ => [.store, .pool, .sched, .events, .submission]
  | .controlWord _ _ | .set _ _ | .join | .leave | .recover | .status | .readContext _ | .readCounters | .clearCounters
  | .readEvents | .ackEvents _ | .setEventMask _ | .setEventPriority _ | .discardHead => hostBlocks
  | .deliveryTake => [.out, .events, .delivery, .store, .pool, .sched]
  | .responseTake => [.out, .events, .control]
  | .deliveryTurn => [.delivery, .store, .pool, .sched, .contexts, .events, .counters]
  | .lineActivity => [.trunk, .sched]
  | .lineIdle | .silentCellEndsSkip | .fragment _ => [.trunk]
  | .selectionCommit | .holdoffRunsOut => [.duties, .pool, .submission, .trunk, .sched]
  | .frameEnd _ | .collision _ =>
    [.store, .pool, .sched, .duties, .counters, .submission, .contexts, .trunk, .station, .events]
  | .jamEnd => [.sched, .station, .trunk, .contexts]
  | .frameError _ | .clash _ | .rxData _ | .rxReplay _ | .rxGapreq _ | .rxBeacon _ =>
    [.store, .pool, .sched, .duties, .counters, .contexts, .trunk, .station, .events]
  | .requestDelayRunsOut _ => [.pool]
  | .repairTimeoutRunsOut _ => [.pool, .contexts, .sched]
  | .replayDelayRunsOut _ => [.duties]
  | .beaconTimerRunsOut => [.sched]
  | .listenTimerRunsOut => [.station, .events, .sched, .pool, .contexts]
  | .silenceTimerRunsOut _ => [.contexts, .events]

theorem run_only (s : State) (c : Command) (args : List Word) : Only (.control :: c.blocks) s (s.run c args) :=
  (((setParser_only _ _).then (execute_only _ c args)).then (respond_only _ _ _)).mono (by simp [or_comm])

theorem command_blocks_subset (c : Command) : ∀ b ∈ .control :: c.blocks, b ∈ hostBlocks := by
  cases c <;> decide

theorem controlWord_only (s : State) (w : Word) (wend : Bool) : Only hostBlocks s (s.controlWord w wend) := by
  obtain ⟨only, -⟩ | ⟨-, -, c, args, run, -⟩ := controlWord_cases s w wend
  · exact only.mono
  · rw [run]
    exact (run_only _ _ _).mono (command_blocks_subset c)

theorem issue_only (s : State) (c : Command) (args : List Word) : Only hostBlocks s (s.issue c args) :=
  Only.foldl (fun s (x : Word × Bool) => controlWord_only s x.1 x.2) _ _

theorem resets_only {s t : State} (h : t.pending = s.pending) : Only resetBlocks s t := by
  intro b other
  cases b <;> first | exact h | exact absurd other (by decide)

/-- Every command answers a next state, in which only its blocks differ. -/
theorem exec_only (c : Instr) (s : State) : ∃ t, exec c s = .next t ∧ Only (blocks c) s t := by
  have unchanged (bs : List Block) : Only bs s s := Only.refl bs s
  cases c with
  | masterReset => exact ⟨_, rfl, resets_only (by rfl)⟩
  | mrstRelease stn rate =>
    cases held : s.station.mrst
    · exact ⟨s, exec_mrstRelease_released held stn rate, unchanged _⟩
    · exact ⟨_, if_pos held, resets_only (by rfl)⟩
  | partialReset =>
    cases held : s.station.mrst
    · exact ⟨_, if_neg (by simp [held]), resets_only (by rfl)⟩
    · exact ⟨s, exec_partialReset_held held, unchanged _⟩
  | dataWord w wend =>
    simp only [exec, execDataWord]
    split
    · exact ⟨_, rfl, unchanged _⟩
    · split
      · exact ⟨_, rfl, takeDataWord_only _ _ _⟩
      · exact ⟨_, rfl, (raise_only _ _).mono (by simp [blocks])⟩
  | controlWord w wend => exact ⟨_, rfl, controlWord_only _ _ _⟩
  | set field value => exact ⟨_, rfl, issue_only _ _ _⟩
  | join => exact ⟨_, rfl, issue_only _ _ _⟩
  | leave => exact ⟨_, rfl, issue_only _ _ _⟩
  | recover => exact ⟨_, rfl, issue_only _ _ _⟩
  | status => exact ⟨_, rfl, issue_only _ _ _⟩
  | readContext origin => exact ⟨_, rfl, issue_only _ _ _⟩
  | readCounters => exact ⟨_, rfl, issue_only _ _ _⟩
  | clearCounters => exact ⟨_, rfl, issue_only _ _ _⟩
  | readEvents => exact ⟨_, rfl, issue_only _ _ _⟩
  | ackEvents mask => exact ⟨_, rfl, issue_only _ _ _⟩
  | setEventMask mask => exact ⟨_, rfl, issue_only _ _ _⟩
  | setEventPriority mask => exact ⟨_, rfl, issue_only _ _ _⟩
  | discardHead => exact ⟨_, rfl, issue_only _ _ _⟩
  | deliveryTake =>
    simp only [exec, execDeliveryTake]
    split
    · exact ⟨_, rfl, (putOut_only _ _ _).mono⟩
    · exact ⟨_, rfl, takeDelivery_only _⟩
  | responseTake =>
    simp only [exec, execResponseTake]
    split
    · exact ⟨_, rfl, (putOut_only _ _ _).mono⟩
    · exact ⟨_, rfl, takeResponse_only _⟩
  | deliveryTurn =>
    simp only [exec, execDeliveryTurn]
    split
    · split
      · exact ⟨_, rfl, serve_only _ _⟩
      · exact ⟨_, rfl, unchanged _⟩
    · exact ⟨_, rfl, unchanged _⟩
  | lineActivity =>
    simp only [exec, execLineActivity]
    split
    · exact ⟨_, rfl, unchanged _⟩
    · exact ⟨_, rfl, ((withTrunk_only _ _).then (defer_only _)).mono⟩
  | lineIdle =>
    simp only [exec, execLineIdle]
    split
    · exact ⟨_, rfl, unchanged _⟩
    · exact ⟨_, rfl, withTrunk_only _ _⟩
  | selectionCommit =>
    simp only [exec, execSelectionCommit]
    split
    · split
      · exact ⟨_, rfl, commit_only _ _⟩
      · exact ⟨_, rfl, unchanged _⟩
    · exact ⟨_, rfl, unchanged _⟩
  | holdoffRunsOut =>
    simp only [exec, execHoldoffRunsOut]
    split
    · split
      · exact ⟨_, rfl, startCommitted_only _ _⟩
      · exact ⟨_, rfl, unchanged _⟩
    · exact ⟨_, rfl, unchanged _⟩
  | frameEnd read => exact ⟨_, rfl, readBackCells_only _ _⟩
  | collision read => exact ⟨_, rfl, readBackCells_only _ _⟩
  | jamEnd =>
    simp only [exec, execJamEnd]
    split
    · exact ⟨_, rfl, (withSched_only _ _).then (transmitterFree_only _)⟩
    · exact ⟨_, rfl, unchanged _⟩
  | fragment cells =>
    simp only [exec, execFragment]
    split
    · exact ⟨_, rfl, unchanged _⟩
    · exact ⟨_, rfl, withTrunk_only _ _⟩
  | frameError cells => exact ⟨_, rfl, burstEnds_only _ _⟩
  | clash cells => exact ⟨_, rfl, burstEnds_only _ _⟩
  | rxData cells => exact ⟨_, rfl, burstEnds_only _ _⟩
  | rxReplay cells => exact ⟨_, rfl, burstEnds_only _ _⟩
  | rxGapreq cells => exact ⟨_, rfl, burstEnds_only _ _⟩
  | rxBeacon cells => exact ⟨_, rfl, burstEnds_only _ _⟩
  | requestDelayRunsOut i =>
    simp only [exec, execRequestDelayRunsOut]
    split
    · exact ⟨_, rfl, ((setTracker_only _ _ _).then (setRequests_only _ _)).mono (by simp [blocks])⟩
    · exact ⟨_, rfl, unchanged _⟩
    · exact ⟨_, rfl, unchanged _⟩
  | repairTimeoutRunsOut i =>
    simp only [exec, execRepairTimeoutRunsOut]
    split
    · split
      · exact ⟨_, rfl, (setTracker_only _ _ _).mono (by simp [blocks])⟩
      · exact ⟨_, rfl, giveUpRun_only _ _⟩
    · exact ⟨_, rfl, unchanged _⟩
    · exact ⟨_, rfl, unchanged _⟩
  | replayDelayRunsOut duties => exact ⟨_, rfl, Only.foldl (bs := [.duties]) (fun s (x : Fin 16 × SeqNum) => makeEligible_only s x.1) _ _⟩
  | beaconTimerRunsOut =>
    simp only [exec, execBeaconTimerRunsOut]
    split
    · exact ⟨_, rfl, withSched_only _ _⟩
    · exact ⟨_, rfl, unchanged _⟩
  | listenTimerRunsOut =>
    simp only [exec, execListenTimerRunsOut]
    split
    · exact ⟨_, rfl, ((((withStation_only _ _).then (raise_only _ _)).then (withSched_only _ _)).then
        (offerAll_only _)).mono⟩
    · exact ⟨_, rfl, unchanged _⟩
  | silenceTimerRunsOut n =>
    simp only [exec, execSilenceTimerRunsOut]
    split
    · exact ⟨_, rfl, (setCtx_only _ _ _).then (raise_only _ _)⟩
    · exact ⟨_, rfl, unchanged _⟩
  | silentCellEndsSkip =>
    simp only [exec, execSilentCellEndsSkip]
    split
    · exact ⟨_, rfl, withTrunk_only _ _⟩
    · exact ⟨_, rfl, unchanged _⟩

/-- Only a command's blocks differ in the state it answers. -/
theorem only_of_exec {c : Instr} {s t : State} (h : exec c s = .next t) : Only (blocks c) s t := by
  obtain ⟨u, run, only⟩ := exec_only c s
  rw [run] at h
  injection h with h
  exact h ▸ only

/-- Settles O2: the queue is among no command's blocks. -/
theorem everyCommandAnswersNext : Obligations.EveryCommandAnswersNext := by
  intro c s
  obtain ⟨t, run, only⟩ := exec_only c s
  exact ⟨t, run, only .pending (by cases c <;> simp [blocks, resetBlocks, hostBlocks])⟩

end Sys2Proof.Machine
end

section
/-! What happens inside the happenings: the small changes of trackers, duties and the commitment that every larger operation is made of. `Inner s t` says
that `t` comes from `s` by such changes alone; what each of them keeps, every larger operation keeps. -/

open Sys2Proof

namespace Sys2Proof.Machine

set_option Elab.async false

/-! ### Reads after the small operations -/

@[simp] theorem tracker_setCtx (s : State) (o : Station) (c : Context) (i : Fin 8) : (s.setCtx o c).tracker i = s.tracker i := rfl
@[simp] theorem ctx_setTracker (s : State) (i : Fin 8) (x : Tracker) (o : Station) : (s.setTracker i x).ctx o = s.ctx o := rfl
@[simp] theorem duty_setCtx (s : State) (o : Station) (c : Context) (d : Fin 16) : (s.setCtx o c).duty d = s.duty d := rfl
@[simp] theorem duty_setTracker (s : State) (i : Fin 8) (x : Tracker) (d : Fin 16) : (s.setTracker i x).duty d = s.duty d := rfl
@[simp] theorem tracker_dropRequest (s : State) (i j : Fin 8) : (s.dropRequest i).tracker j = s.tracker j := rfl
@[simp] theorem requests_dropRequest (s : State) (i : Fin 8) :
    (s.dropRequest i).pool.requests = s.pool.requests.filter fun r => r.tracker != i := rfl
@[simp] theorem tracker_clearHeld (s : State) (o : Station) (i : Fin 8) : (s.clearHeld o).tracker i = s.tracker i := rfl

@[simp] theorem withdraw_pool (s : State) (d : DutyRef) : (s.withdraw d).pool = s.pool := withdraw_only s d .pool (by decide)
@[simp] theorem withdraw_duties (s : State) (d : DutyRef) : (s.withdraw d).duties = s.duties := withdraw_only s d .duties (by decide)
@[simp] theorem withdraw_submission (s : State) (d : DutyRef) : (s.withdraw d).submission = s.submission :=
  withdraw_only s d .submission (by decide)
@[simp] theorem withdraw_station (s : State) (d : DutyRef) : (s.withdraw d).station = s.station := withdraw_only s d .station (by decide)
@[simp] theorem withdraw_trunk (s : State) (d : DutyRef) : (s.withdraw d).trunk = s.trunk := withdraw_only s d .trunk (by decide)
@[simp] theorem tracker_withdraw (s : State) (d : DutyRef) (i : Fin 8) : (s.withdraw d).tracker i = s.tracker i :=
  State.tracker_congr (by rw [withdraw_pool]) i
@[simp] theorem duty_withdraw (s : State) (d : DutyRef) (e : Fin 16) : (s.withdraw d).duty e = s.duty e :=
  State.duty_congr (by rw [withdraw_duties]) e
@[simp] theorem ctx_withdraw (s : State) (d : DutyRef) (o : Station) : (s.withdraw d).ctx o = s.ctx o :=
  State.ctx_congr (withdraw_only s d .contexts (by decide)) o

theorem withdraw_sched (s : State) (d : DutyRef) : (s.withdraw d).sched =
    if s.sched.state = .holdoff ∧ s.sched.commitment.map (·.duty) = some d then s.sched.released else s.sched := by
  unfold State.withdraw
  split <;> rfl

/-! ### Freeing, in two parts -/

/-- Freeing a tracker, up to the offer (R53). -/
def State.release (s : State) (i : Fin 8) : State :=
  ((((s.setTracker i
    { s.tracker i with state := .free, timer := .stopped, marker := .none, lastOrigin := (s.tracker i).origin }).dropRequest
      i).withdraw (.gapreq i)).clearHeld (s.tracker i).origin)

theorem freeTracker_eq (s : State) (i : Fin 8) : s.freeTracker i =
    if (s.tracker i).state = .free then s
    else if (s.release i).isActive then (s.release i).offer i else s.release i := rfl

@[simp] theorem release_station (s : State) (i : Fin 8) : (s.release i).station = s.station := by
  simp [State.release, State.clearHeld, State.setCtx, State.dropRequest, State.setRequests, State.setTracker]

theorem release_tracker (s : State) (i j : Fin 8) : (s.release i).tracker j =
    if j = i then
      { s.tracker i with state := .free, timer := .stopped, marker := .none, lastOrigin := (s.tracker i).origin }
    else s.tracker j := by
  simp [State.release, State.tracker_setTracker]

theorem release_ctx (s : State) (i : Fin 8) (o : Station) : (s.release i).ctx o =
    if o = (s.tracker i).origin then { s.ctx o with trackerHeld := false } else s.ctx o := by
  have ctx : ∀ p, (((s.setTracker i
    { s.tracker i with state := .free, timer := .stopped, marker := .none, lastOrigin := (s.tracker i).origin }).dropRequest
      i).withdraw (.gapreq i)).ctx p = s.ctx p := fun p => ctx_withdraw _ _ p
  unfold State.release State.clearHeld
  rw [State.ctx_setCtx, ctx, ctx]
  split
  · rename_i h; rw [h]
  · rfl

theorem release_requests (s : State) (i : Fin 8) :
    (s.release i).pool.requests = s.pool.requests.filter fun r => r.tracker != i := by
  simp [State.release, State.clearHeld, State.setCtx]

theorem release_sched (s : State) (i : Fin 8) : (s.release i).sched = (s.withdraw (.gapreq i)).sched := by
  rw [withdraw_sched]
  exact withdraw_sched _ _

/-! ### The small changes -/

/-- `t` comes from `s` by the changes that larger operations are made of: what is outside trackers, tracker-held flags, duties,
DATA duty queue, Scheduler, station and trunk changes freely; a FREE tracker is claimed for an origin without one, a tracker in
service is freed, changed or loses its pending request, a duty leaves or is made. -/
inductive Inner : State → State → Prop
  | refl (s : State) : Inner s s
  | trans {s t u : State} : Inner s t → Inner t u → Inner s u
  | elsewhere {s t : State} (pool : t.pool = s.pool) (sched : t.sched = s.sched) (duties : t.duties = s.duties)
      (queue : t.submission.queue = s.submission.queue) (station : t.station = s.station) (trunk : t.trunk = s.trunk)
      (held : ∀ o, (t.ctx o).trackerHeld = (s.ctx o).trackerHeld) : Inner s t
  | claim (s : State) (i : Fin 8) (o : Station) (free : (s.tracker i).state = .free) (active : s.isActive = true)
      (alone : (s.ctx o).trackerHeld = false) : Inner s (s.claim i o)
  | release (s : State) (i : Fin 8) (serving : (s.tracker i).state ≠ .free) : Inner s (s.release i)
  | adjust (s : State) (i : Fin 8) (x : Tracker) (serving : (s.tracker i).state ≠ .free) (serves : x.state ≠ .free)
      (origin : x.origin = (s.tracker i).origin) (marker : x.marker = (s.tracker i).marker)
      (consistent : (s.tracker i).Consistent → x.Consistent) : Inner s (s.setTracker i x)
  | unrequest (s : State) (i : Fin 8) (x : Tracker) (serving : (s.tracker i).state ≠ .free) (serves : x.state ≠ .free)
      (origin : x.origin = (s.tracker i).origin) (off : (s.tracker i).marker ≠ .onWire) (marker : x.marker = .none)
      (consistent : (s.tracker i).Consistent → x.Consistent) :
      Inner s (((s.setTracker i x).dropRequest i).withdraw (.gapreq i))
  | emptyDuty (s : State) (d : Fin 16) : Inner s (s.emptyDuty d)
  | makeDuty (s : State) (d : Fin 16) (k : Key) (delay : Nat) (free : s.duty d = none) : Inner s (s.makeDuty d k delay)

namespace Inner

theorem of_only {bs : List Block} {s t : State} (h : Only bs s t)
    (other : ∀ b ∈ bs, b ∉ [Block.pool, .sched, .duties, .submission, .station, .trunk, .contexts] := by decide) :
    Inner s t :=
  have same (b : Block) (hb : b ∈ [Block.pool, .sched, .duties, .submission, .station, .trunk, .contexts]) : b.same s t :=
    h b fun hbs => other b hbs hb
  .elsewhere (same .pool (by decide)) (same .sched (by decide)) (same .duties (by decide))
    (congrArg Submission.queue (same .submission (by decide)))
    (same .station (by decide)) (same .trunk (by decide)) fun o => by rw [State.ctx_congr (same .contexts (by decide))]

theorem setCtx (s : State) (o : Station) (c : Context) (h : c.trackerHeld = (s.ctx o).trackerHeld := by rfl) :
    Inner s (s.setCtx o c) :=
  .elsewhere rfl rfl rfl rfl rfl rfl fun p => by
    rw [State.ctx_setCtx]
    split
    · rename_i hp; rw [hp, h]
    · rfl

theorem foldl {α : Type} {f : State → α → State} (h : ∀ s a, Inner s (f s a)) (l : List α) (s : State) :
    Inner s (l.foldl f s) := by
  induction l generalizing s with
  | nil => exact .refl s
  | cons a l ih => exact (h s a).trans (ih (f s a))

end Inner

/-! ### The larger operations are made of the small ones -/

theorem offer_inner {s : State} {i : Fin 8} (free : (s.tracker i).state = .free) (active : s.isActive = true) :
    Inner s (s.offer i) := by
  unfold State.offer
  split
  · rename_i o found
    have waits := List.find?_some found
    simp only [State.waiting, Bool.and_eq_true, Bool.not_eq_true'] at waits
    exact .claim s i o free active waits.2
  · exact .refl s

theorem freeTracker_inner (s : State) (i : Fin 8) : Inner s (s.freeTracker i) := by
  rw [freeTracker_eq]
  split
  · exact .refl s
  · rename_i serving
    have freed := Inner.release s i serving
    split
    · rename_i active
      exact freed.trans (offer_inner (by rw [release_tracker, if_pos rfl]) active)
    · exact freed

theorem lowestFree_spec {s : State} {i : Fin 8} (h : s.lowestFree = some i) : (s.tracker i).state = .free := by
  simpa using List.find?_some h

theorem serving_spec {s : State} {o : Station} {i : Fin 8} (h : s.serving o = some i) :
    (s.tracker i).state ≠ .free ∧ (s.tracker i).origin = o := by
  simpa using List.find?_some h

theorem serving_eq_none {s : State} {o : Station} :
    s.serving o = none ↔ ∀ i, (s.tracker i).state ≠ .free → (s.tracker i).origin ≠ o := by
  simp [State.serving, allTrackers]

theorem claimIfWaiting_inner (s : State) (o : Station) : Inner s (s.claimIfWaiting o) := by
  unfold State.claimIfWaiting
  split
  · rename_i waits
    simp only [State.waiting, Bool.and_eq_true, Bool.not_eq_true'] at waits
    obtain ⟨active, -, alone⟩ := waits
    split
    · rename_i i lowest
      exact .claim s i o (lowestFree_spec lowest) active alone
    · exact .refl s
  · exact .refl s

/-- A tracker in WAIT has no request outstanding (Table 3.2). -/
theorem Tracker.Consistent.of_wait {x : Tracker} (h : x.Consistent) (wait : x.state = .wait) : x.marker = .none := by
  simp only [Tracker.Consistent, wait] at h
  exact h.1

theorem recompute_inner {s : State} {i : Fin 8} (serving : (s.tracker i).state ≠ .free) : Inner s (s.recompute i) := by
  unfold State.recompute
  dsimp only
  split
  · exact freeTracker_inner s i
  · split
    · exact .adjust s i _ serving serving rfl rfl id
    · split
      · rename_i wait
        split
        · exact .adjust s i _ serving serving rfl rfl fun c => by
            simpa [Tracker.Consistent, wait] using c.of_wait wait
        · exact .adjust s i _ serving (by simp) rfl rfl fun c => by
            simpa [Tracker.Consistent] using c.of_wait wait
      · exact .adjust s i _ serving serving rfl rfl id

theorem changeNotice_inner (s : State) (o : Station) : Inner s (s.changeNotice o) := by
  unfold State.changeNotice
  split
  · rename_i i serves
    exact recompute_inner (serving_spec serves).1
  · exact claimIfWaiting_inner s o

theorem restartNotice_inner (s : State) (o : Station) : Inner s (s.restartNotice o) := by
  unfold State.restartNotice
  split
  · exact freeTracker_inner _ _
  · exact .refl s

theorem freeAllTrackers_inner (s : State) : Inner s s.freeAllTrackers := .foldl freeTracker_inner _ _

theorem park_inner (s : State) (i : Fin 8) : Inner s (s.park i) := by
  unfold State.park
  dsimp only
  split
  · rename_i timed
    have serving : (s.tracker i).state ≠ .free := by rcases timed with h | h <;> simp [h]
    split
    · rename_i pending
      exact .unrequest s i _ serving (by simp) rfl (by simp [pending]) rfl
        fun _ => by simp [Tracker.Consistent]
    · rename_i other
      exact .adjust s i _ serving (by simp) rfl rfl fun _ => by simp [Tracker.Consistent, other]
  · exact .refl s

theorem resume_inner (s : State) (i : Fin 8) : Inner s (s.resume i) := by
  unfold State.resume
  dsimp only
  split
  · rename_i parked
    refine .adjust s i _ (by simp [parked]) (by simp) rfl rfl fun _ => ?_
    by_cases h : (s.tracker i).marker = .none <;> simp [Tracker.Consistent, h]
  · exact .refl s

theorem reportFrom_inner (s : State) (old : Nat) : Inner s (s.reportFrom old) := by
  unfold State.reportFrom
  split
  · exact .foldl park_inner _ _
  · split
    · exact .foldl resume_inner _ _
    · exact .refl s

theorem applyStore_inner (s : State) (st : Store) : Inner s (s.applyStore st) :=
  (Inner.of_only (withStore_only s st)).trans (reportFrom_inner _ _)

theorem hearReplay_inner (s : State) (k : Key) : Inner s (s.hearReplay k) := by
  refine .foldl (fun s i => ?_) _ _
  unfold State.hearReplayAt
  dsimp only
  split
  · rename_i h
    obtain ⟨wait, -⟩ := h
    exact .adjust s i _ (by simp [wait]) (by simp [wait]) rfl rfl fun c => by
      simpa [Tracker.Consistent, wait] using c.of_wait wait
  · exact .refl s

theorem hearGapreq_inner (s : State) (origin : Station) (epoch : Epoch) (first : SeqNum) (count : Nat) :
    Inner s (s.hearGapreq origin epoch first count) := by
  refine .foldl (fun s i => ?_) _ _
  unfold State.hearGapreqAt
  dsimp only
  split
  · split
    · rename_i h
      obtain ⟨delay, off⟩ := h
      exact .unrequest s i _ (by simp [delay]) (by simp) rfl off rfl fun _ => by simp [Tracker.Consistent]
    · split
      · rename_i wait
        exact .adjust s i _ (by simp [wait]) (by simp [wait]) rfl rfl fun c => by
          simpa [Tracker.Consistent, wait] using c.of_wait wait
      · exact .refl s
  · exact .refl s

theorem decideState_inner (s : State) (o : Station) : Inner s (s.decideState o) := by
  unfold State.decideState
  split
  · exact .setCtx _ _ _
  · exact .refl s

theorem settle_inner (s : State) (o : Station) (was : ContextState) (must : Bool) : Inner s (s.settle o was must) := by
  unfold State.settle
  dsimp only
  split
  · exact (decideState_inner _ _).trans (changeNotice_inner _ _)
  · exact decideState_inner _ _

theorem tellEviction_inner (s : State) (o : Station) (k : Key) : Inner s (s.tellEviction o k) := by
  unfold State.tellEviction
  split
  · exact settle_inner _ _ _ _
  · exact .refl s

theorem insertFrame_inner (s : State) (o : Station) (e : Entry) : Inner s (s.insertFrame o e).after := by
  unfold State.insertFrame
  have stored := Inner.of_only (withStore_only s (s.store.insert s.stn s.setup.ownShare e).2)
  dsimp only
  split
  · exact .refl s
  · exact .refl s
  · exact stored.trans (reportFrom_inner _ _)
  · exact (stored.trans (tellEviction_inner _ _ _)).trans (reportFrom_inner _ _)

theorem afterDueInsert_inner (s : State) (a : InsertAnswer) : Inner s (s.afterDueInsert a) :=
  .of_only (afterDueInsert_only s a)

theorem beginRestart_inner (s : State) (o : Station) (epoch : Epoch) (nextDue horizon floor : SeqNum) :
    Inner s (s.beginRestart o epoch nextDue horizon floor) :=
  ((Inner.setCtx _ _ _ (by unfold Context.countRestart; split <;> rfl)).trans (applyStore_inner _ _)).trans (.setCtx _ _ _)

theorem endRestart_inner (s : State) (o : Station) : Inner s (s.endRestart o) :=
  ((decideState_inner _ _).trans (restartNotice_inner _ _)).trans (changeNotice_inner _ _)

theorem syncFrame_inner (s : State) (m : Message) : Inner s (s.syncFrame m) :=
  (((Inner.setCtx _ _ _).trans (insertFrame_inner _ _ _)).trans (afterDueInsert_inner _ _)).trans (settle_inner _ _ _ _)

theorem behindFrame_inner (s : State) (m : Message) : Inner s (s.behindFrame m) := by
  unfold State.behindFrame
  dsimp only
  split
  · exact (insertFrame_inner _ _ _).trans (settle_inner _ _ _ _)
  · exact insertFrame_inner _ _ _

theorem windowFrame_inner (s : State) (m : Message) : Inner s (s.windowFrame m) := by
  unfold State.windowFrame
  dsimp only
  split
  · exact .refl s
  · exact (((insertFrame_inner _ _ _).trans (afterDueInsert_inner _ _)).trans (.setCtx _ _ _)).trans
      (settle_inner _ _ _ _)

theorem farFrame_inner (s : State) (m : Message) : Inner s (s.farFrame m) := by
  unfold State.farFrame
  dsimp only
  split
  · exact .refl s
  · exact (((Inner.setCtx _ _ _).trans (insertFrame_inner _ _ _)).trans (afterDueInsert_inner _ _)).trans
      (settle_inner _ _ _ _)

theorem restartFrame_inner (s : State) (m : Message) : Inner s (s.restartFrame m) := by
  unfold State.restartFrame
  have rest (u : State) : Inner u
      ((((u.insertFrame m.key.origin (m.entry Pins.onlyDue)).after.afterDueInsert
        (u.insertFrame m.key.origin (m.entry Pins.onlyDue)).answer)).endRestart m.key.origin) :=
    ((insertFrame_inner _ _ _).trans (afterDueInsert_inner _ _)).trans (endRestart_inner _ _)
  dsimp only
  split
  · exact (beginRestart_inner _ _ _ _ _ _).trans (rest _)
  · exact (beginRestart_inner _ _ _ _ _ _).trans (rest _)

theorem classify_inner (s : State) (m : Message) : Inner s (s.classify m) := by
  unfold State.classify
  dsimp only
  split
  · exact .refl s
  · exact syncFrame_inner s m
  · split
    · exact restartFrame_inner s m
    · split
      · exact .of_only (count_only _ _)
      · split
        · exact behindFrame_inner s m
        · split
          · exact windowFrame_inner s m
          · exact farFrame_inner s m

theorem restartBeacon_inner (s : State) (o : Station) (epoch : Epoch) (nextSeq : SeqNum) :
    Inner s (s.restartBeacon o epoch nextSeq) := by
  unfold State.restartBeacon
  dsimp only
  split
  · exact (beginRestart_inner _ _ _ _ _ _).trans (endRestart_inner _ _)
  · exact (beginRestart_inner _ _ _ _ _ _).trans (endRestart_inner _ _)

theorem takeBeacon_inner (s : State) (o : Station) (epoch : Epoch) (nextSeq : SeqNum) :
    Inner s (s.takeBeacon o epoch nextSeq) := by
  unfold State.takeBeacon
  dsimp only
  split
  · exact .refl s
  · exact .setCtx _ _ _
  · split
    · exact restartBeacon_inner s o epoch nextSeq
    · split
      · unfold State.raiseByBeacon
        dsimp only
        split
        · exact (Inner.setCtx _ _ _).trans (settle_inner _ _ _ _)
        · exact .refl s
      · exact .refl s

theorem giveUp_inner (s : State) (o : Station) (epoch : Epoch) (value : SeqNum) : Inner s (s.giveUp o epoch value) := by
  unfold State.giveUp
  dsimp only
  split
  · exact (Inner.setCtx _ _ _).trans (settle_inner _ _ _ _)
  · exact .refl s

theorem advance_inner (s : State) (o : Station) (n : SeqNum) : Inner s (s.advance o n) := by
  unfold State.advance
  have moved := Inner.setCtx s o ((s.ctx o).advanceTo n) rfl
  dsimp only
  split
  · exact moved.trans (settle_inner _ _ _ _)
  · exact moved

theorem giveUpRun_inner (s : State) (i : Fin 8) : Inner s (s.giveUpRun i) := by
  unfold State.giveUpRun
  dsimp only
  split
  · exact ((giveUp_inner _ _ _ _).trans (freeTracker_inner _ _)).trans (claimIfWaiting_inner _ _)
  · exact (giveUp_inner _ _ _ _).trans (claimIfWaiting_inner _ _)

theorem heard_inner (s : State) (n : Station) : Inner s (s.heard n) := .setCtx _ _ _

theorem lowestDuty_spec {s : State} {d : Fin 16} (h : s.lowestDuty = some d) : s.duty d = none := by
  simpa using List.find?_some h

theorem examineKey_inner (requester : Station) (s : State) (k : Key) : Inner s (s.examineKey requester k) := by
  unfold State.examineKey
  split
  · rename_i d lowest
    dsimp only
    split
    · refine (applyStore_inner s _).trans (.makeDuty _ d k _ ?_)
      rw [State.duty_congr (congrArg DutyPool.slots ((applyStore_only s _) .duties (by decide))), lowestDuty_spec lowest]
    · exact .refl s
    · exact .refl s
  · split
    · exact .of_only (count_only _ _)
    · exact .refl s

theorem answerGapreq_inner (s : State) (requester origin : Station) (epoch : Epoch) (first : SeqNum) (count : Nat) :
    Inner s (s.answerGapreq requester origin epoch first count) := by
  unfold State.answerGapreq
  split
  · exact .foldl (fun s k => examineKey_inner requester s k) _ _
  · exact .refl s

theorem releaseDuty_inner (s : State) (d : Fin 16) (k : Key) : Inner s (s.releaseDuty d k) :=
  (Inner.emptyDuty s d).trans (applyStore_inner _ _)

theorem cancelDuty_inner (k : Key) (s : State) (d : Fin 16) : Inner s (s.cancelDuty k d) := by
  unfold State.cancelDuty
  split
  · exact .refl s
  · split
    · exact releaseDuty_inner _ _ _
    · exact .refl s

theorem cancelKey_inner (s : State) (k : Key) : Inner s (s.cancelKey k) := .foldl (cancelDuty_inner k) _ _

theorem dropDuty_inner (s : State) (d : Fin 16) : Inner s (s.dropDuty d) := by
  unfold State.dropDuty
  split
  · exact .refl s
  · exact releaseDuty_inner _ _ _

theorem dropDuties_inner (s : State) : Inner s s.dropDuties := .foldl dropDuty_inner _ _

theorem replayEnded_inner (s : State) (d : Fin 16) : Inner s (s.replayEnded d) := by
  unfold State.replayEnded
  split
  · exact .refl s
  · split
    · exact releaseDuty_inner _ _ _
    · exact .refl s

theorem dropHead_inner (s : State) : Inner s s.dropHead := by
  unfold State.dropHead
  split
  · exact .refl s
  · rename_i r rest _
    have gone := Inner.of_only (withDelivery_only s { s.delivery with queue := rest, readPos := 0 })
    dsimp only
    split
    · exact gone.trans (applyStore_inner _ _)
    · exact gone
    · exact gone

theorem serve_inner (s : State) (o : Station) : Inner s (s.serve o) := by
  unfold State.serve
  have pointer := Inner.of_only (withDelivery_only s { s.delivery with lastServed := o })
  dsimp only
  split
  · exact ((pointer.trans (applyStore_inner _ _)).trans (.of_only (enqueue_only _ _))).trans (advance_inner _ _ _)
  · exact (pointer.trans (.of_only
      (((enqueue_only _ _).then (raise_only _ _)).then (addCount_only _ _ _)))).trans (advance_inner _ _ _)
  · exact (pointer.trans (.of_only ((enqueue_only _ _).then (raise_only _ _)))).trans (.setCtx _ _ _)
  · exact .refl s

theorem distribute_inner (s : State) (f : Frame) : Inner s (s.distribute f) := by
  unfold State.distribute
  split
  · exact (classify_inner _ _).trans (cancelKey_inner _ _)
  · unfold State.replayFrame
    dsimp only
    split
    · exact (hearReplay_inner _ _).trans (cancelKey_inner _ _)
    · exact ((classify_inner _ _).trans (hearReplay_inner _ _)).trans (cancelKey_inner _ _)
  · exact (hearGapreq_inner _ _ _ _ _).trans (answerGapreq_inner _ _ _ _ _ _)
  · exact takeBeacon_inner _ _ _ _

/-! ### What the small changes keep -/

/-- The Scheduler is as it was, or the commitment of a hold-off has been released (R131). -/
def Withdrawn (s t : State) : Prop := t.sched = s.sched ∨ s.sched.state = .holdoff ∧ t.sched = s.sched.released

theorem Withdrawn.trans {s t u : State} (h : Withdrawn s t) (k : Withdrawn t u) : Withdrawn s u := by
  rcases h with h | ⟨holdoff, h⟩
  · rcases k with k | ⟨held, k⟩
    · exact .inl (k.trans h)
    · exact .inr ⟨by rw [← h]; exact held, by rw [k, h]⟩
  · rcases k with k | ⟨held, -⟩
    · exact .inr ⟨holdoff, k.trans h⟩
    · rw [h] at held
      simp [Scheduler.released] at held

theorem withdraw_withdrawn {s t : State} (d : DutyRef) (h : t.sched = (s.withdraw d).sched) : Withdrawn s t := by
  rw [withdraw_sched] at h
  split at h
  · rename_i holds
    exact .inr ⟨holds.1, h⟩
  · exact .inl h

theorem claim_eq (s : State) (i : Fin 8) (o : Station) : s.claim i o = s ∨ ∃ first count, s.runOf o = some (first, count) ∧
    s.claim i o = (s.setTracker i (s.claimedTracker o first count)).setCtx o { s.ctx o with trackerHeld := true } := by
  unfold State.claim
  split
  · exact .inl rfl
  · rename_i first count run
    refine .inr ⟨first, count, run, ?_⟩
    simp only [State.claimedTracker, State.peerExhausted, Store.peerExhausted, State.peerClaimable, beq_iff_eq]
    rfl

theorem Inner.sched {s t : State} (h : Inner s t) : Withdrawn s t := by
  induction h with
  | refl => exact .inl rfl
  | trans _ _ h k => exact h.trans k
  | elsewhere _ sched => exact .inl sched
  | claim s i o => exact .inl ((claim_only s i o) .sched (by decide))
  | release s i => exact withdraw_withdrawn _ (release_sched s i)
  | adjust => exact .inl rfl
  | unrequest s i => exact withdraw_withdrawn (.gapreq i) (by rw [withdraw_sched, withdraw_sched]; rfl)
  | emptyDuty s d => exact withdraw_withdrawn (.replay d) (by rw [State.emptyDuty, withdraw_sched, withdraw_sched]; rfl)
  | makeDuty s d k delay => exact .inl ((makeDuty_only s d k delay) .sched (by decide))

theorem Inner.station {s t : State} (h : Inner s t) :
    t.station = s.station ∧ t.trunk = s.trunk ∧ t.submission.queue = s.submission.queue := by
  induction h with
  | refl => exact ⟨rfl, rfl, rfl⟩
  | trans _ _ h k => exact ⟨k.1.trans h.1, k.2.1.trans h.2.1, k.2.2.trans h.2.2⟩
  | elsewhere _ _ _ queue station trunk => exact ⟨station, trunk, queue⟩
  | claim s i o =>
    exact ⟨claim_only s i o .station (by decide), claim_only s i o .trunk (by decide),
      congrArg Submission.queue (claim_only s i o .submission (by decide))⟩
  | release s i => simp [State.release, State.clearHeld, State.setCtx, State.dropRequest, State.setRequests, State.setTracker]
  | adjust => exact ⟨rfl, rfl, rfl⟩
  | unrequest s i => simp [State.dropRequest, State.setRequests, State.setTracker]
  | emptyDuty s d =>
    exact ⟨emptyDuty_only s d .station (by decide), emptyDuty_only s d .trunk (by decide),
      congrArg Submission.queue (emptyDuty_only s d .submission (by decide))⟩
  | makeDuty s d k delay =>
    exact ⟨makeDuty_only s d k delay .station (by decide), makeDuty_only s d k delay .trunk (by decide),
      congrArg Submission.queue (makeDuty_only s d k delay .submission (by decide))⟩

end Sys2Proof.Machine
end

section
/-! Station, Scheduler and Trunk Interface together (O8), the parser (O6) and the setup record (O9). -/

open Sys2Proof

namespace Sys2Proof.Machine

set_option Elab.async false

/-! ### Invariants read few blocks -/

theorem ModeSound.congr {s t : State} (m : ModeSound s) (station : t.station = s.station) (sched : t.sched = s.sched)
    (trunk : t.trunk = s.trunk) : ModeSound t := by
  obtain ⟨mute, listen, path, commitment, holdoff, holdoffActive, quiet, beacon, reading, frame, abandons, held⟩ := m
  constructor <;> simpa only [station, sched, trunk]

theorem ModeSound.of_only {bs : List Block} {s t : State} (h : Only bs s t) (m : ModeSound s)
    (other : ∀ b ∈ bs, b ∉ [Block.station, .sched, .trunk] := by decide) : ModeSound t :=
  m.congr (h .station fun k => other _ k (by decide)) (h .sched fun k => other _ k (by decide))
    (h .trunk fun k => other _ k (by decide))

/-- A released commitment agrees with the rest (R130, R131). -/
theorem ModeSound.withdrawn {s t : State} (m : ModeSound s) (sched : Withdrawn s t) (station : t.station = s.station)
    (trunk : t.trunk = s.trunk) : ModeSound t := by
  rcases sched with same | ⟨holdoff, released⟩
  · exact m.congr station same trunk
  · obtain ⟨mute, listen, path, -, -, -, -, beacon, reading, frame, abandons, held⟩ := m
    constructor <;> simp_all [Scheduler.released]

theorem ModeSound.inner {s t : State} (h : Inner s t) (m : ModeSound s) : ModeSound t :=
  m.withdrawn h.sched h.station.1 h.station.2.1

/-! ### The receive path over the cells of a burst -/

/-- A cell turns no path off, and no path to reading its own frame. -/
theorem cell_path (rx : RxPath) (c : BurstCell) :
    ((rx.cell c).path = .off ↔ rx.path = .off) ∧ ((rx.cell c).path = .own ↔ rx.path = .own) := by
  have follow (r : RxPath) (h : r.path = .hunt ∨ r.path = .assemble) :
      (r.follow c).path ≠ .off ∧ (r.follow c).path ≠ .own := by
    unfold RxPath.follow
    split
    · split
      · exact ⟨nofun, nofun⟩
      · rcases h with h | h <;> simp [h]
    · dsimp only
      split
      · rcases h with h | h <;> simp [h]
      · split
        · split
          · exact ⟨nofun, nofun⟩
          · rcases h with h | h <;> simp [h]
        · split
          · rcases h with h | h <;> simp [h]
          · split <;> rcases h with h | h <;> simp [h]
  unfold RxPath.cell
  split
  · simp_all
  · simp_all
  · simp_all
  · rename_i waiting
    simpa [waiting] using follow (RxPath.at .hunt) (.inl rfl)
  · rename_i hunt
    simpa [hunt] using follow rx (.inl hunt)
  · rename_i assemble
    simpa [assemble] using follow rx (.inr assemble)

theorem cells_path (cs : List BurstCell) (rx : RxPath) :
    ((rx.cells cs).path = .off ↔ rx.path = .off) ∧ ((rx.cells cs).path = .own ↔ rx.path = .own) := by
  induction cs generalizing rx with
  | nil => exact ⟨Iff.rfl, Iff.rfl⟩
  | cons c cs ih =>
    rw [RxPath.cells_cons]
    exact ⟨(ih _).1.trans (cell_path rx c).1, (ih _).2.trans (cell_path rx c).2⟩

/-- The receive path may go on as long as it is turned neither off nor to the own frame. -/
theorem ModeSound.withTrunk {s : State} (m : ModeSound s) {x : Trunk} (off : x.rx.path = .off ↔ s.trunk.rx.path = .off)
    (own : x.rx.path = .own ↔ s.trunk.rx.path = .own) (tx : x.tx = s.trunk.tx) : ModeSound (s.withTrunk x) := by
  obtain ⟨mute, listen, path, commitment, holdoff, holdoffActive, quiet, beacon, reading, frame, abandons, held⟩ := m
  constructor <;> simp_all

theorem firstTransition_path (rx : RxPath) : (rx.firstTransition.path = .off ↔ rx.path = .off) ∧
    (rx.firstTransition.path = .own ↔ rx.path = .own) := by
  unfold RxPath.firstTransition
  split
  · rename_i waiting
    simp [waiting, RxPath.at]
  · exact ⟨Iff.rfl, Iff.rfl⟩

theorem endSkip_path (rx : RxPath) : (rx.endSkip.path = .off ↔ rx.path = .off) ∧
    (rx.endSkip.path = .own ↔ rx.path = .own) := by
  unfold RxPath.endSkip
  split
  · rename_i skip
    simp [skip, RxPath.at]
  · exact ⟨Iff.rfl, Iff.rfl⟩

/-! ### Leaving ACTIVE -/

theorem quitActive_inner (s : State) : Inner (s.withSched s.sched.leaveActive) s.quitActive :=
  (dropDuties_inner _).trans (freeAllTrackers_inner _)

theorem leaveActive_state (x : Scheduler) : x.leaveActive.state ≠ .holdoff := by
  unfold Scheduler.leaveActive
  dsimp only
  split
  · simp
  · rename_i h; exact h

/-- Once ACTIVE is left nothing more happens to the Scheduler: no hold-off is left to withdraw. -/
theorem quitActive_sched (s : State) : s.quitActive.sched = s.sched.leaveActive := by
  rcases (quitActive_inner s).sched with same | ⟨holdoff, -⟩
  · exact same
  · exact absurd holdoff (leaveActive_state s.sched)

theorem quitActive_station (s : State) :
    s.quitActive.station = s.station ∧ s.quitActive.trunk = s.trunk ∧ s.quitActive.submission = s.submission :=
  ⟨quitActive_only s .station (by decide), quitActive_only s .trunk (by decide), quitActive_only s .submission (by decide)⟩

theorem enterMuted_station (s : State) (why : MuteReason) :
    (s.enterMuted why).station = { s.station with state := .muted, muteReason := some why } ∧
      (s.enterMuted why).trunk = s.trunk ∧ (s.enterMuted why).sched = s.sched.leaveActive ∧
      (s.enterMuted why).submission = s.submission :=
  ⟨(quitActive_station _).1, (quitActive_station _).2.1, quitActive_sched _, (quitActive_station _).2.2⟩

theorem ModeSound.enterMuted {s : State} (m : ModeSound s) (active : s.station.state = .active) (why : MuteReason) :
    ModeSound (s.enterMuted why) := by
  obtain ⟨station, trunk, sched, -⟩ := enterMuted_station s why
  obtain ⟨mute, listen, path, commitment, holdoff, holdoffActive, quiet, beacon, reading, frame, abandons, held⟩ := m
  by_cases h : s.sched.state = .holdoff <;> constructor <;> simp_all [Scheduler.leaveActive]

/-- With nothing in flight the Scheduler that leaves ACTIVE is IDLE. -/
theorem leaveActive_idle {s : State} (h : s.inFlight = false) : s.sched.leaveActive.state = .idle := by
  unfold Scheduler.leaveActive
  cases hs : s.sched.state <;> simp_all [State.inFlight]

theorem acceptLeave_station (s : State) : s.acceptLeave.sched = s.sched.leaveActive ∧
    s.acceptLeave.submission = s.submission ∧
    s.acceptLeave.station =
      { s.station with state := if s.inFlight then .leaving else .ready, muteReason := none, listenTimer := none } ∧
    s.acceptLeave.trunk = if s.inFlight then s.trunk else { s.trunk with rx := RxPath.at .off } := by
  unfold State.acceptLeave
  split
  · exact ⟨quitActive_sched _, (quitActive_station _).2.2, (quitActive_station _).1, (quitActive_station _).2.1⟩
  · exact ⟨quitActive_sched _, (quitActive_station _).2.2, (quitActive_station _).1, (quitActive_station _).2.1⟩

theorem ModeSound.acceptLeave {s : State} (m : ModeSound s) (released : s.station.mrst = false)
    (inside : s.station.state = .listening ∨ s.station.state = .active ∨ s.station.state = .muted) :
    ModeSound s.acceptLeave := by
  obtain ⟨sched, -, station, trunk⟩ := acceptLeave_station s
  obtain ⟨mute, listen, path, commitment, holdoff, holdoffActive, quiet, beacon, reading, frame, abandons, held⟩ := m
  have on : s.trunk.rx.path ≠ .off := by rw [Ne, path]; rcases inside with h | h | h <;> simp [h]
  cases flight : s.inFlight
  · have idle := leaveActive_idle flight
    have still : s.sched.state ≠ .sending := by rintro h; simp [State.inFlight, h] at flight
    have silent : s.trunk.tx = none := by simpa [still] using frame
    by_cases h : s.sched.state = .holdoff <;> constructor <;> simp_all [Scheduler.leaveActive, RxPath.at]
  · have busy : s.sched.state ≠ .holdoff := by rintro h; simp [State.inFlight, h] at flight
    constructor <;> simp_all [Scheduler.leaveActive]

/-! ### Start and end of a transmission -/

theorem ModeSound.releaseCommitment {s : State} (m : ModeSound s) (holdoff : s.sched.state = .holdoff) :
    ModeSound s.releaseCommitment := m.withdrawn (.inr ⟨holdoff, rfl⟩) rfl rfl

theorem ModeSound.startCommitted {s : State} (m : ModeSound s) {c : Commitment}
    (holdoff : s.sched.state = .holdoff) (released : s.station.mrst = false) : ModeSound (s.startCommitted c) := by
  unfold State.startCommitted
  split
  · exact m.releaseCommitment holdoff
  · rename_i r take
    have station : r.2.station = s.station := takeFrame_only (t := r.2) take .station (by decide)
    obtain ⟨mute, listen, path, commitment, hold, holdoffActive, quiet, beacon, reading, frame, abandons, held⟩ := m
    constructor <;> simp_all [State.drive, RxPath.at]

theorem ModeSound.commit {s : State} (m : ModeSound s) (c : Commitment) (point : s.selectionPoint = true) :
    ModeSound (s.commit c) := by
  simp only [State.selectionPoint, Bool.and_eq_true, State.isActive_iff, beq_iff_eq, Option.isNone_iff_eq_none] at point
  obtain ⟨⟨⟨-, active⟩, idle⟩, none⟩ := point
  have released : s.station.mrst = false := by
    by_contra h
    simpa [active] using m.held (by simpa using h)
  have held : ModeSound (s.withSched
      { s.sched with state := .holdoff, commitment := some c, holdoff := some (holdoffCells s.stn c) }) := by
    obtain ⟨mute, listen, path, commitment, hold, holdoffActive, quiet, beacon, reading, frame, abandons, held⟩ := m
    constructor <;> simp_all
  unfold State.commit
  dsimp only
  split
  · exact held.startCommitted rfl released
  · exact held

/-- What the owner of a transmitted duty is told leaves the Scheduler as it is, but for a BEACON duty's end. -/
theorem tellSent_sched {s : State} (h : s.sched.state ≠ .holdoff) (d : DutyRef) :
    (s.tellSent d).sched = s.sched ∨ (s.tellSent d).sched = { s.sched with beaconDuty := false, beaconCount := 0 } := by
  have keep {t : State} (k : Withdrawn s t) : t.sched = s.sched := k.resolve_right fun x => h x.1
  cases d with
  | replay d => exact .inl (keep ((Inner.of_only (count_only s .replaysSent)).trans (replayEnded_inner _ d)).sched)
  | gapreq i => exact .inl (requestSent_only s i .sched (by decide))
  | data =>
    left
    simp only [State.tellSent, State.dataEnded]
    split
    · rfl
    · split
      · rename_i x rest _ _
        have claim := (applyStore_inner (s.withSubmission { s.submission with queue := rest, nextUntx := x.seq + 1 })
          ((s.withSubmission { s.submission with queue := rest, nextUntx := x.seq + 1 }).store.clearTx
            (s.ownKey x.seq)).2).sched
        rw [tellOwnContext_only _ _ .sched (by decide)]
        exact keep claim
      · rfl
  | beacon => exact .inr rfl

theorem tellAbandoned_sched {s : State} (h : s.sched.state ≠ .holdoff) (d : DutyRef) :
    (s.tellAbandoned d).sched = s.sched ∨
      (s.tellAbandoned d).sched = { s.sched with beaconDuty := false, beaconCount := 0 } := by
  cases d with
  | replay d => exact .inl ((replayEnded_inner s d).sched.resolve_right fun x => h x.1)
  | gapreq i => exact .inl (requestAbandoned_only s i .sched (by decide))
  | data => exact tellSent_sched h .data
  | beacon => exact .inr rfl

theorem tellCollision_sched (s : State) (d : DutyRef) : (s.tellCollision d).sched = s.sched ∨
    s.sched.beaconDuty = true ∧ (s.tellCollision d).sched = { s.sched with beaconCount := s.sched.beaconCount + 1 } := by
  cases d with
  | replay d => exact .inl (replayCollided_only s d .sched (by decide))
  | gapreq i => exact .inl (requestCollided_only s i .sched (by decide))
  | data => exact .inl (dataCollided_only s .sched (by decide))
  | beacon =>
    simp only [State.tellCollision]
    split
    · rename_i pending
      exact .inr ⟨pending, rfl⟩
    · exact .inl rfl

theorem ModeSound.transmitterFree {s : State} (m : ModeSound s) (idle : s.sched.state = .idle) :
    ModeSound s.transmitterFree := by
  unfold State.transmitterFree
  split
  · rename_i leaving
    obtain ⟨mute, listen, path, commitment, hold, holdoffActive, quiet, beacon, reading, frame, abandons, held⟩ := m
    have silent : s.trunk.tx = none := by simpa [idle] using frame
    constructor <;> simp_all [State.enterReady, State.stopSilenceTimers, RxPath.at]
  · exact m

theorem ModeSound.frameEnds {s : State} (m : ModeSound s) (c : Commitment) (sending : s.sched.state = .sending) :
    ModeSound (s.frameEnds c) := by
  unfold State.frameEnds
  have busy : s.stopDriving.sched.state ≠ .holdoff := by simp [State.stopDriving, sending]
  have station : (s.stopDriving.tellSent c.duty).station = s.station := tellSent_only _ _ .station (by decide)
  have trunk : (s.stopDriving.tellSent c.duty).trunk = s.stopDriving.trunk := tellSent_only _ _ .trunk (by decide)
  refine ModeSound.transmitterFree ?_ rfl
  obtain ⟨mute, listen, path, commitment, hold, holdoffActive, quiet, beacon, reading, frame, abandons, held⟩ := m
  have still : s.sched.holdoff = none := by simpa [sending] using hold
  have own : s.trunk.rx.path = .own := reading.mpr sending
  have outside : ¬(s.station.state = .setup ∨ s.station.state = .ready) := by rw [← path, own]; simp
  rcases tellSent_sched busy c.duty with sched | sched <;> constructor <;> simp_all [State.stopDriving, RxPath.at]

theorem ModeSound.collides {s : State} (m : ModeSound s) (c : Commitment) (sending : s.sched.state = .sending) :
    ModeSound (s.collides c) := by
  obtain ⟨mute, listen, path, commitment, hold, holdoffActive, quiet, beacon, reading, frame, abandons, held⟩ := m
  have still : s.sched.holdoff = none := by simpa [sending] using hold
  have own : s.trunk.rx.path = .own := reading.mpr sending
  have outside : ¬(s.station.state = .setup ∨ s.station.state = .ready) := by rw [← path, own]; simp
  have busy : s.startJam.sched.state ≠ .holdoff := by simp [State.startJam, State.count, State.addCount, sending]
  unfold State.collides
  split
  · have station : (s.startJam.tellCollision c.duty).station = s.station := tellCollision_only _ _ .station (by decide)
    have trunk : (s.startJam.tellCollision c.duty).trunk = s.startJam.trunk := tellCollision_only _ _ .trunk (by decide)
    rcases tellCollision_sched s.startJam c.duty with sched | ⟨pending, sched⟩ <;>
      constructor <;> simp_all [State.startJam, State.toJamming, State.count, State.addCount, RxPath.at]
  · have station : (s.startJam.tellAbandoned c.duty).station = s.station := tellAbandoned_only _ _ .station (by decide)
    have trunk : (s.startJam.tellAbandoned c.duty).trunk = s.startJam.trunk := tellAbandoned_only _ _ .trunk (by decide)
    have jammed : ModeSound ((s.startJam.tellAbandoned c.duty).noteAbandon.toJamming) := by
      rcases tellAbandoned_sched busy c.duty with sched | sched <;>
        constructor <;>
        simp_all [State.startJam, State.toJamming, State.noteAbandon, State.raise, State.count, State.addCount, RxPath.at]
    unfold State.abandon State.muteRequest
    dsimp only
    split
    · split
      · rename_i active
        exact jammed.enterMuted ((State.isActive_iff _).mp active) _
      · exact jammed
    · exact jammed

theorem ModeSound.readBackCells {s : State} (m : ModeSound s) (read : List (Option BurstCell)) :
    ModeSound (s.readBackCells read) := by
  unfold State.readBackCells
  split
  · rename_i c bytes sending _ _
    split
    · exact m.frameEnds c sending
    · exact m.collides c sending
    · exact m
  · exact m

/-! ### Bursts -/

theorem ModeSound.startListenTimer {s : State} (m : ModeSound s) (listening : s.station.state = .listening) :
    ModeSound s.startListenTimer := by
  obtain ⟨mute, listen, path, commitment, hold, holdoffActive, quiet, beacon, reading, frame, abandons, held⟩ := m
  constructor <;> simp_all [State.startListenTimer]

theorem ModeSound.raise {s : State} (m : ModeSound s) (e : Event) : ModeSound (s.raise e) := m.of_only (raise_only s e)

theorem ModeSound.takeDecision {s : State} (m : ModeSound s) (d : Decision) : ModeSound (s.takeDecision d) := by
  unfold State.takeDecision
  split
  · exact m
  · have noted := (m.of_only (count_only s .rxError)).raise .rxError
    unfold State.frameError
    dsimp only
    split
    · rename_i listening
      exact noted.startListenTimer listening
    · exact noted
  · unfold State.goodFrame
    split
    · unfold State.clash
      split
      · rename_i listening
        exact (m.raise _).startListenTimer listening
      · rename_i active
        exact (m.raise _).enterMuted active _
      · exact m.raise _
      · exact m
      · exact m
      · exact m
    · exact (m.of_only ((count_only s .rxGood).then (heard_only _ _))).inner (distribute_inner _ _)

theorem ModeSound.burstEnds {s : State} (m : ModeSound s) (cells : List BurstCell) : ModeSound (s.burstEnds cells) := by
  unfold State.burstEnds
  split
  · exact m
  · split
    · exact m
    · rename_i off
      exact m.withTrunk (by simp [RxPath.at, off]) (by simp [RxPath.at, off]) rfl
    · rename_i own off
      refine ModeSound.takeDecision ?_ _
      exact m.withTrunk (iff_of_false (by simp [RxPath.at]) off) (iff_of_false (by simp [RxPath.at]) own) rfl

/-! ### Commands of the host -/

theorem ModeSound.acceptJoin {s : State} (m : ModeSound s) (released : s.station.mrst = false)
    (off : s.station.state = .setup ∨ s.station.state = .ready) : ModeSound s.acceptJoin := by
  have station : s.acceptJoin.station = { s.station with state := .listening, listenTimer := some s.setup.listenPeriod } := by
    unfold State.acceptJoin
    dsimp only
    split <;> rfl
  have trunk : s.acceptJoin.trunk = { s.trunk with rx := RxPath.at (if s.trunk.burst then .skip else .waiting) } := by
    unfold State.acceptJoin
    dsimp only
    split <;> rfl
  have sched : s.acceptJoin.sched = s.sched := acceptJoin_only s .sched (by decide)
  obtain ⟨mute, listen, path, commitment, hold, holdoffActive, quiet, beacon, reading, frame, abandons, held⟩ := m
  have idle := quiet off
  have silent : s.trunk.tx = none := by simpa [idle] using frame
  have whole : s.station.muteReason = none := by
    have : s.station.state ≠ .muted := by rcases off with h | h <;> simp [h]
    simpa [this] using mute
  have inactive : s.station.state ≠ .active := by rcases off with h | h <;> simp [h]
  by_cases burst : s.trunk.burst = true <;> constructor <;> simp_all [RxPath.at]

theorem ModeSound.execute {s : State} (m : ModeSound s) (released : s.station.mrst = false) (c : Command)
    (args : List Word) : ModeSound (s.execute c args).after := by
  have only := execute_only s c args
  cases c with
  | set =>
    simp only [State.execute, State.setField]
    split
    · obtain ⟨mute, listen, path, commitment, hold, holdoffActive, quiet, beacon, reading, frame, abandons, held⟩ := m
      constructor <;> simp_all
    · exact m
  | join =>
    simp only [State.execute, State.joinTrunk]
    split
    · rename_i off
      exact m.acceptJoin released off
    · exact m
  | leave =>
    simp only [State.execute, State.leaveTrunk]
    split
    · rename_i inside
      exact m.acceptLeave released inside
    · exact m
  | recover =>
    simp only [State.execute, State.recoverStation]
    split
    · obtain ⟨mute, listen, path, commitment, hold, holdoffActive, quiet, beacon, reading, frame, abandons, held⟩ := m
      constructor <;> simp_all [State.acceptRecover]
    · exact m
  | discardHead =>
    simp only [State.execute, State.discard]
    split
    · exact m
    · exact m.inner (dropHead_inner s)
  | _ => exact m.of_only only

/-- A command written on the control channel keeps what its effect keeps, when the parser, the response buffer and the event flags do not
matter to it. -/
theorem hostWord_keeps {I : State → Prop} (blind : ∀ s t, Only [.control, .events] s t → I s → I t)
    (effect : ∀ s c args, s.station.mrst = false → I s → I (s.execute c args).after) {c : Instr}
    (host : isHostWord c = true) {s t : State} (h : exec c s = .next t) (i : I s) : I t := by
  obtain ⟨only, -⟩ | ⟨u, cmd, args, st, data, only, -, released, rfl, -⟩ := exec_hostWord_cases host h
  · exact blind s t only i
  · have there : u.station.mrst = false := by rw [only .station (by decide)]; exact released
    exact blind _ _ ((respond_only _ _ _).mono (by decide)) (effect u cmd args there (blind s u only i))

/-! ### Data words -/

theorem rejectSubmission_inner (s : State) (wend : Bool) : Inner s (s.rejectSubmission wend) :=
  ((applyStore_inner s _).trans (.of_only (raise_only _ _))).trans (.elsewhere rfl rfl rfl rfl rfl rfl fun _ => rfl)

/-- A data word's claims make small changes; a message that it completes joins the DATA duty queue at the end (R118). -/
theorem takeDataWord_inner (s : State) (w : Word) (wend : Bool) : Inner s (s.takeDataWord w wend) ∨
    ∃ u n seq, Inner s u ∧ s.takeDataWord w wend = u.withSubmission
      { u.submission with nextSeq := n, queue := u.submission.queue ++ [{ seq := seq, count := 0, marker := .waiting }] } := by
  have setAsm (s : State) (a : AssemblyState) : Inner s (s.setAsm a) := .elsewhere rfl rfl rfl rfl rfl rfl fun _ => rfl
  have raise (s : State) (e : Event) : Inner s (s.raise e) := .of_only (raise_only s e)
  unfold State.takeDataWord
  split
  · left
    unfold State.wordZero
    split
    · exact raise _ _
    · split
      · exact (raise _ _).trans (setAsm _ _)
      · split
        · rename_i st _
          have same : (s.applyStore st).submission.queue = s.submission.queue := (applyStore_inner s st).station.2.2
          exact (applyStore_inner s st).trans
            (.elsewhere rfl rfl rfl (by exact same.symm) rfl rfl fun _ => rfl)
        · exact .refl s
  · unfold State.payloadWord
    have written : Inner s ((s.withStore (s.store.writeReserved (s.submission.bytesOf w))).withSubmission
        { s.submission with taken := s.submission.taken + 1 }) := .elsewhere rfl rfl rfl rfl rfl rfl fun _ => rfl
    dsimp only
    split
    · left
      split
      · exact written.trans (rejectSubmission_inner _ _)
      · exact written
    · split
      · generalize ((s.withStore (s.store.writeReserved (s.submission.bytesOf w))).withSubmission
          { s.submission with taken := s.submission.taken + 1 }) = v at written
        have claim := (written.trans (applyStore_inner v (v.store.complete v.nextKey v.completionPins).2)).trans
          (setAsm _ .idle)
        have same : (v.applyStore (v.store.complete v.nextKey v.completionPins).2).submission = v.submission :=
          applyStore_only _ _ .submission (by decide)
        unfold State.completeMessage
        dsimp only
        split
        · refine .inr ⟨_, v.submission.nextSeq + 1, v.submission.nextSeq, claim, ?_⟩
          simp only [State.setAsm, State.withSubmission_submission, same]
        · exact .inl (claim.trans (raise _ _))
        · exact .inl claim
      · exact .inl (written.trans (setAsm _ _))
  · exact .inl (rejectSubmission_inner _ _)
  · left
    split
    · exact setAsm _ _
    · exact .refl s

/-! ### Every command -/

/-- A reset leaves a fresh state, or, not taken, changes nothing. -/
theorem exec_reset_cases {c : Instr} (reset : isReset c = true) {s t : State} (h : exec c s = .next t) :
    t = s ∨ (∃ e, Fresh t e) ∧ (t.setup = Setup.defaults ∨ t.setup = s.setup) := by
  cases c with
  | masterReset =>
    obtain ⟨u, run, fresh, station, -⟩ := exec_masterReset s
    obtain rfl : u = t := by rw [run] at h; exact Host.Outcome.next.inj h
    exact .inr ⟨⟨0, fresh⟩, .inl (by rw [State.setup, station]; rfl)⟩
  | mrstRelease stn rate =>
    cases held : s.station.mrst
    · rw [exec_mrstRelease_released held] at h
      exact .inl (Host.Outcome.next.inj h).symm
    · obtain ⟨u, run, fresh, station, -⟩ := exec_mrstRelease held stn rate
      obtain rfl : u = t := by rw [run] at h; exact Host.Outcome.next.inj h
      exact .inr ⟨⟨0, fresh⟩, .inl (by rw [State.setup, station]; rfl)⟩
  | partialReset =>
    cases held : s.station.mrst
    · obtain ⟨u, run, fresh, station, -⟩ := exec_partialReset held
      obtain rfl : u = t := by rw [run] at h; exact Host.Outcome.next.inj h
      exact .inr ⟨⟨_, fresh⟩, .inr (by rw [State.setup, station]; rfl)⟩
    · rw [exec_partialReset_held held] at h
      exact .inl (Host.Outcome.next.inj h).symm
  | _ => exact absurd reset Bool.false_ne_true

theorem burstOf_exec {c : Instr} {cells : List BurstCell} (h : burstOf c = some cells) (s : State) :
    exec c s = .next (s.burstEnds cells) := by
  cases c <;> cases h <;> rfl

theorem ModeSound.jamEnd {s t : State} (m : ModeSound s) (h : exec .jamEnd s = .next t) : ModeSound t := by
  simp only [exec, execJamEnd] at h
  split at h <;> cases h
  · rename_i jamming
    refine ModeSound.transmitterFree ?_ rfl
    obtain ⟨mute, listen, path, commitment, hold, holdoffActive, quiet, beacon, reading, frame, abandons, held⟩ := m
    constructor <;> simp_all
  · exact m

theorem ModeSound.beaconTimer {s t : State} (m : ModeSound s) (h : exec .beaconTimerRunsOut s = .next t) :
    ModeSound t := by
  simp only [exec, execBeaconTimerRunsOut] at h
  split at h <;> cases h
  · rename_i running
    obtain ⟨mute, listen, path, commitment, hold, holdoffActive, quiet, beacon, reading, frame, abandons, held⟩ := m
    have active : s.station.state = .active := by
      by_contra other
      simp [(beacon other).1] at running
    constructor <;> simp_all
  · exact m

theorem ModeSound.listenTimer {s t : State} (m : ModeSound s) (h : exec .listenTimerRunsOut s = .next t) :
    ModeSound t := by
  simp only [exec, execListenTimerRunsOut] at h
  split at h
  · rename_i due
    obtain ⟨listening, -⟩ := due
    rw [← Host.Outcome.next.inj h]
    refine ModeSound.of_only (offerAll_only _) ?_
    obtain ⟨mute, listen, path, commitment, hold, holdoffActive, quiet, beacon, reading, frame, abandons, held⟩ := m
    constructor <;> simp_all [State.raise]
  · exact Host.Outcome.next.inj h ▸ m

theorem modeSound_exec {c : Instr} {s t : State} (h : exec c s = .next t) (m : ModeSound s) : ModeSound t := by
  by_cases host : isHostWord c = true
  · exact hostWord_keeps (fun _ _ only m => m.of_only only) (fun s c args released m => m.execute released c args) host h m
  by_cases reset : isReset c = true
  · obtain rfl | ⟨⟨e, fresh⟩, -⟩ := exec_reset_cases reset h
    · exact m
    · exact fresh.modeSound
  have only := only_of_exec h
  cases c with
  | dataWord w wend =>
    simp only [exec, execDataWord] at h
    split at h
    · cases h; exact m
    · split at h <;> cases h
      · obtain inner | ⟨u, n, seq, inner, eq⟩ := takeDataWord_inner s w wend
        · exact m.inner inner
        · rw [eq]
          exact (m.inner inner).of_only (withSubmission_only _ _)
      · exact m.raise _
  | deliveryTake =>
    simp only [exec, execDeliveryTake] at h
    split at h <;> cases h
    · exact m.of_only (putOut_only _ _ _)
    · unfold State.takeDelivery
      split
      · exact m.of_only ((putOut_only _ _ _).then (raise_only _ _))
      · dsimp only
        split
        · exact (m.of_only (putOut_only _ _ _)).inner (dropHead_inner _)
        · exact m.of_only ((putOut_only _ _ _).then (withDelivery_only _ _))
  | deliveryTurn =>
    simp only [exec, execDeliveryTurn] at h
    split at h
    · split at h <;> cases h
      · exact m.inner (serve_inner _ _)
      · exact m
    · cases h; exact m
  | lineActivity =>
    simp only [exec, execLineActivity] at h
    split at h <;> cases h
    · exact m
    · have hunt := m.withTrunk (x := { s.trunk with lineIdle := false, burst := true, rx := s.trunk.rx.firstTransition })
        (firstTransition_path _).1 (firstTransition_path _).2 rfl
      unfold State.defer
      split
      · rename_i holdoff
        exact hunt.releaseCommitment holdoff
      · exact hunt
  | lineIdle =>
    simp only [exec, execLineIdle] at h
    split at h <;> cases h
    · exact m
    · exact m.withTrunk (endSkip_path _).1 (endSkip_path _).2 rfl
  | silentCellEndsSkip =>
    simp only [exec, execSilentCellEndsSkip] at h
    split at h <;> cases h
    · exact m.withTrunk (endSkip_path _).1 (endSkip_path _).2 rfl
    · exact m
  | fragment cells =>
    simp only [exec, execFragment] at h
    split at h <;> cases h
    · exact m
    · exact m.withTrunk (cells_path cells _).1 (cells_path cells _).2 rfl
  | selectionCommit =>
    simp only [exec, execSelectionCommit] at h
    split at h
    · rename_i point
      split at h <;> cases h
      · exact m.commit _ point
      · exact m
    · cases h; exact m
  | holdoffRunsOut =>
    simp only [exec, execHoldoffRunsOut] at h
    split at h
    · rename_i due
      obtain ⟨holdoff, -, active⟩ := due
      split at h <;> cases h
      · refine m.startCommitted holdoff ?_
        by_contra asserted
        have := m.held (by simpa using asserted)
        simp [(State.isActive_iff s).mp active] at this
      · exact m
    · cases h; exact m
  | frameEnd read => cases h; exact m.readBackCells read
  | collision read => cases h; exact m.readBackCells read
  | jamEnd => exact m.jamEnd h
  | repairTimeoutRunsOut i =>
    simp only [exec, execRepairTimeoutRunsOut] at h
    split at h
    · split at h <;> cases h
      · exact m.of_only (setTracker_only _ _ _)
      · exact m.inner (giveUpRun_inner _ _)
    · cases h; exact m
    · cases h; exact m
  | beaconTimerRunsOut => exact m.beaconTimer h
  | listenTimerRunsOut => exact m.listenTimer h
  | responseTake => exact m.of_only only
  | requestDelayRunsOut i => exact m.of_only only (by simp [blocks])
  | replayDelayRunsOut duties => exact m.of_only only (by simp [blocks])
  | silenceTimerRunsOut n => exact m.of_only only (by simp [blocks])
  | frameError cells | clash cells | rxData cells | rxReplay cells | rxGapreq cells | rxBeacon cells =>
    cases h; exact m.burstEnds cells
  | masterReset | mrstRelease _ _ | partialReset => exact absurd rfl reset
  | _ => exact absurd rfl host

/-- Settles O8: the joint invariant command by command, a step being its front command. -/
theorem modesStayTogether : Obligations.ModesStayTogether := fun _ _ h m =>
  step_keeps (P := ModeSound) (fun s l m => m.of_only (withPending_only s l)) (fun _ m => m)
    (fun _ _ _ h m => modeSound_exec h m) h m

/-! ### The parser -/

theorem ParserSound.congr {s t : State} (p : ParserSound s) (control : t.control.parser = s.control.parser) : ParserSound t :=
  fun c args collecting => p c args (by rw [← control]; exact collecting)

theorem parserSound_of_idle {t : State} (idle : t.control.parser = .idle) : ParserSound t :=
  fun c args collecting => by simp [idle] at collecting

theorem run_parser (s : State) (c : Command) (args : List Word) : (s.run c args).control.parser = .idle := by
  have effect : ((s.setParser .idle).execute c args).after.control = (s.setParser .idle).control :=
    execute_only _ c args .control (by cases c <;> decide)
  exact congrArg Control.parser effect

theorem ParserSound.malformed {s : State} (wend : Bool) : ParserSound (s.malformed wend) := by
  unfold State.malformed
  split
  · exact parserSound_of_idle rfl
  · intro c args collecting
    simp [State.setParser] at collecting

theorem ParserSound.controlWord {s : State} (p : ParserSound s) (w : Word) (wend : Bool) :
    ParserSound (s.controlWord w wend) := by
  unfold State.controlWord
  split
  · exact p
  · split
    · unfold State.commandWord0
      split
      · split
        · exact p.congr rfl
        · intro c args collecting
          simp [State.setParser] at collecting
      · split
        · exact .malformed wend
        · rename_i c _
          split
          · split
            · exact parserSound_of_idle (run_parser _ _ _)
            · exact .malformed wend
          · rename_i more
            split
            · exact .malformed wend
            · intro c' args collecting
              simp only [State.setParser, State.withControl_control, Parser.collecting.injEq] at collecting
              obtain ⟨rfl, rfl⟩ := collecting
              exact Nat.pos_of_ne_zero more
    · rename_i c args _
      unfold State.argumentWord
      split
      · rename_i more
        split
        · exact .malformed wend
        · intro c' args' collecting
          simp only [State.setParser, State.withControl_control, Parser.collecting.injEq] at collecting
          obtain ⟨rfl, rfl⟩ := collecting
          simpa using more
      · split
        · exact parserSound_of_idle (run_parser _ _ _)
        · exact .malformed wend
    · exact .malformed wend
    · split
      · exact parserSound_of_idle rfl
      · exact p

theorem parserSound_exec {c : Instr} {s t : State} (h : exec c s = .next t) (p : ParserSound s) : ParserSound t := by
  by_cases row : isHostCommand c = true
  · obtain ⟨cmd, args, -, -, run⟩ := exec_host row
    rw [run] at h
    cases h
    unfold State.issue
    generalize withWend (s.wordsLeft cmd args) = ws
    induction ws generalizing s with
    | nil => exact p
    | cons w ws ih => exact ih (p.controlWord w.1 w.2)
  by_cases reset : isReset c = true
  · obtain rfl | ⟨⟨e, fresh⟩, -⟩ := exec_reset_cases reset h
    · exact p
    · exact fresh.parserSound
  have only := only_of_exec h
  cases c with
  | controlWord w wend => cases h; exact p.controlWord w wend
  | responseTake =>
    simp only [exec, execResponseTake] at h
    split at h <;> cases h
    · exact p.congr rfl
    · unfold State.takeResponse
      split
      · exact p.congr rfl
      · dsimp only
        split
        · exact p.congr rfl
        · exact p.congr rfl
  | masterReset | mrstRelease _ _ | partialReset => exact absurd rfl reset
  | _ => first
    | exact absurd rfl row
    | exact p.congr (congrArg Control.parser (only .control (by simp [blocks])))

/-- Settles O6: a word that is collected is followed by another argument. -/
theorem parserStaysSound : Obligations.ParserStaysSound := fun _ _ h p =>
  step_keeps (P := ParserSound) (fun _ _ p => p.congr rfl) (fun _ p => p) (fun _ _ _ h p => parserSound_exec h p) h p

end Sys2Proof.Machine
end

section
/-! What Station Control holds and which commands change it (O9, O59), and flags and counters, which only rise (O60). -/

open Sys2Proof

namespace Sys2Proof.Machine

set_option Elab.async false

/-! ### Station Control outside the host's commands -/

/-- The sampled straps, the setup record and the MRST line stand. -/
structure SameSetting (s t : State) : Prop where
  stn : t.station.stn = s.station.stn
  rate : t.station.rate = s.station.rate
  setup : t.station.setup = s.station.setup
  mrst : t.station.mrst = s.station.mrst

theorem SameSetting.of_station {s t : State} (h : t.station = s.station) : SameSetting s t := by
  constructor <;> rw [h]

/-- The station goes from LEAVING to READY, from ACTIVE to MUTED, or stays as it was; straps, setup record and MRST stand. -/
def StationMove (s t : State) : Prop :=
  SameSetting s t ∧ (t.station.state = s.station.state ∨ s.station.state = .leaving ∧ t.station.state = .ready ∨
    s.station.state = .active ∧ t.station.state = .muted)

theorem StationMove.of_station {s t : State} (h : t.station = s.station) : StationMove s t :=
  ⟨.of_station h, .inl (congrArg StationControl.state h)⟩

/-- What stands before and after a move does not matter to it. -/
theorem StationMove.before {s t u : State} (m : StationMove t u) (h : t.station = s.station) : StationMove s u := by
  obtain ⟨⟨stn, rate, setup, mrst⟩, move⟩ := m
  rw [h] at stn rate setup mrst move
  exact ⟨⟨stn, rate, setup, mrst⟩, move⟩

theorem transmitterFree_move (s : State) : StationMove s s.transmitterFree := by
  unfold State.transmitterFree
  split
  · rename_i leaving
    exact ⟨⟨rfl, rfl, rfl, rfl⟩, .inr (.inl ⟨leaving, rfl⟩)⟩
  · exact .of_station rfl

theorem enterMuted_move {s : State} (active : s.station.state = .active) (why : MuteReason) :
    StationMove s (s.enterMuted why) := by
  obtain ⟨station, -⟩ := enterMuted_station s why
  exact ⟨by constructor <;> rw [station], .inr (.inr ⟨active, by rw [station]⟩)⟩

theorem startListenTimer_move (s : State) : StationMove s s.startListenTimer := ⟨⟨rfl, rfl, rfl, rfl⟩, .inl rfl⟩

theorem takeDecision_move (s : State) (d : Decision) : StationMove s (s.takeDecision d) := by
  unfold State.takeDecision
  split
  · exact .of_station rfl
  · unfold State.frameError
    dsimp only
    split
    · exact (startListenTimer_move _).before rfl
    · exact .of_station rfl
  · unfold State.goodFrame
    split
    · unfold State.clash
      split
      · exact (startListenTimer_move (s.raise .clash)).before rfl
      · rename_i active
        exact (enterMuted_move (s := s.raise .clash) active _).before rfl
      · exact .of_station rfl
      · exact .of_station rfl
      · exact .of_station rfl
      · exact .of_station rfl
    · exact .of_station (distribute_only _ _ .station (by decide))

theorem burstEnds_move (s : State) (cells : List BurstCell) : StationMove s (s.burstEnds cells) := by
  unfold State.burstEnds
  split
  · exact .of_station rfl
  · split
    · exact .of_station rfl
    · exact .of_station rfl
    · exact (takeDecision_move _ _).before rfl

theorem frameEnds_move (s : State) (c : Commitment) : StationMove s (s.frameEnds c) :=
  (transmitterFree_move _).before (tellSent_only s.stopDriving c.duty .station (by decide))

theorem collides_move (s : State) (c : Commitment) : StationMove s (s.collides c) := by
  unfold State.collides
  split
  · exact .of_station (tellCollision_only _ _ .station (by decide))
  · have told : ((s.startJam.tellAbandoned c.duty).noteAbandon.toJamming).station = s.station :=
      tellAbandoned_only s.startJam c.duty .station (by decide)
    unfold State.abandon State.muteRequest
    dsimp only
    split
    · split
      · rename_i active
        exact (enterMuted_move ((State.isActive_iff _).mp active) _).before told
      · exact .of_station told
    · exact .of_station told

theorem readBackCells_move (s : State) (read : List (Option BurstCell)) : StationMove s (s.readBackCells read) := by
  unfold State.readBackCells
  split
  · split
    · exact frameEnds_move _ _
    · exact collides_move _ _
    · exact .of_station rfl
  · exact .of_station rfl

/-- The station and the Scheduler at the entry to ACTIVE, before the offers to the trackers (R141, R167). -/
def State.activated (s : State) : State :=
  ((s.withStation { s.station with state := .active, listenTimer := none }).raise .activeReached).withSched
    { s.sched with beaconDuty := true, beaconCount := 0, beaconTimer := some s.setup.beaconInterval, abandons := 0 }

theorem activated_only (s : State) : Only [.station, .events, .sched] s s.activated :=
  ((withStation_only _ _).then (raise_only _ _)).then (withSched_only _ _)

@[simp] theorem activated_station (s : State) :
    s.activated.station = { s.station with state := .active, listenTimer := none } := rfl

/-- LISTEN_TIMER_RUNS_OUT: nothing, or the entry to ACTIVE from LISTENING with the offers to the trackers (R167). -/
theorem exec_listenTimer_cases {s t : State} (h : exec .listenTimerRunsOut s = .next t) :
    t = s ∨ s.station.state = .listening ∧ s.station.listenTimer.isSome = true ∧ t = s.activated.offerAll := by
  simp only [exec, execListenTimerRunsOut] at h
  split at h
  · rename_i due
    exact .inr ⟨due.1, due.2, (Host.Outcome.next.inj h).symm⟩
  · exact .inl (Host.Outcome.next.inj h).symm

/-- Outside the host's commands and the resets the station moves by the end of a transmission, by a clash or a mute request, or by
the listen timer (Table 9.1). -/
theorem exec_station {c : Instr} (host : ¬ isHostWord c = true) (reset : ¬ isReset c = true) {s t : State}
    (h : exec c s = .next t) : StationMove s t ∨
      c = .listenTimerRunsOut ∧ SameSetting s t ∧ s.station.state = .listening ∧ t.station.state = .active := by
  have only := only_of_exec h
  cases c with
  | listenTimerRunsOut =>
    obtain eq | ⟨listening, -, eq⟩ := exec_listenTimer_cases h
    · exact .inl (eq ▸ .of_station rfl)
    · have station := offerAll_only s.activated .station (by decide)
      rw [Block.same, activated_station] at station
      rw [eq]
      exact .inr ⟨rfl, by constructor <;> rw [station], listening, by rw [station]⟩
  | frameEnd read => exact .inl (Host.Outcome.next.inj h ▸ readBackCells_move s read)
  | collision read => exact .inl (Host.Outcome.next.inj h ▸ readBackCells_move s read)
  | jamEnd =>
    simp only [exec, execJamEnd] at h
    split at h
    · exact .inl (Host.Outcome.next.inj h ▸
        (transmitterFree_move (s.withSched { s.sched with state := .idle })).before rfl)
    · exact .inl (Host.Outcome.next.inj h ▸ .of_station rfl)
  | frameError cells | clash cells | rxData cells | rxReplay cells | rxGapreq cells | rxBeacon cells =>
    exact .inl (Host.Outcome.next.inj h ▸ burstEnds_move s cells)
  | _ => first
    | exact absurd rfl host
    | exact absurd rfl reset
    | exact .inl (.of_station (only .station (by simp [blocks])))

/-! ### Station Control under the host's commands -/

/-- What a command of the control channel does to Station Control: SET writes the setup record in SETUP, JOIN leaves SETUP or
READY for LISTENING, LEAVE leaves LISTENING, ACTIVE and MUTED, RECOVER leaves MUTED (Table 9.1). -/
theorem execute_station (s : State) (c : Command) (args : List Word) :
    (s.execute c args).after.station = s.station ∨
    (c = .set ∧ s.station.state = .setup ∧ (s.execute c args).after.station =
      { s.station with setup := (s.setup.write (args.getD 0 0).toNat (args.getD 1 0).toNat).2 }) ∨
    SameSetting s (s.execute c args).after ∧
      ((c = .join ∧ (s.station.state = .setup ∨ s.station.state = .ready) ∧
          (s.execute c args).after.station.state = .listening) ∨
        (c = .leave ∧ (s.station.state = .listening ∨ s.station.state = .active ∨ s.station.state = .muted) ∧
          ((s.execute c args).after.station.state = .leaving ∨ (s.execute c args).after.station.state = .ready)) ∨
        (c = .recover ∧ s.station.state = .muted ∧ (s.execute c args).after.station.state = .listening)) := by
  have only := execute_only s c args
  cases c with
  | set =>
    simp only [State.execute, State.setField]
    split
    · rename_i inside
      exact .inr (.inl ⟨trivial, inside, rfl⟩)
    · exact .inl rfl
  | join =>
    simp only [State.execute, State.joinTrunk]
    split
    · rename_i off
      refine .inr (.inr ?_)
      unfold State.acceptJoin
      dsimp only
      split
      · exact ⟨⟨rfl, rfl, rfl, rfl⟩, .inl ⟨trivial, off, rfl⟩⟩
      · exact ⟨⟨rfl, rfl, rfl, rfl⟩, .inl ⟨trivial, off, rfl⟩⟩
    · exact .inl rfl
  | leave =>
    simp only [State.execute, State.leaveTrunk]
    split
    · rename_i inside
      obtain ⟨-, -, station, -⟩ := acceptLeave_station s
      refine .inr (.inr ⟨by constructor <;> rw [station], .inr (.inl ⟨trivial, inside, ?_⟩)⟩)
      rw [station]
      cases s.inFlight <;> simp
    · exact .inl rfl
  | recover =>
    simp only [State.execute, State.recoverStation]
    split
    · rename_i muted
      exact .inr (.inr ⟨⟨rfl, rfl, rfl, rfl⟩, .inr (.inr ⟨trivial, muted, rfl⟩)⟩)
    · exact .inl rfl
  | _ => exact .inl (only .station (by decide))

/-! ### The setup record stays in its ranges -/

theorem SetupSound.congr {s t : State} (h : SetupSound s) (same : t.setup = s.setup) : SetupSound t := by
  obtain ⟨h1, h2, h3, h4, h5, h6, h7, h8, h9⟩ := h
  constructor <;> rwa [same]

/-- A field takes its value only in its range, so that the record written to is within the ranges again (R164). -/
theorem SetupSound.write {s t : State} (h : SetupSound s) (field v : Nat) (result : t.setup = (s.setup.write field v).2) :
    SetupSound t := by
  have put {low high : Nat} {x : Setup} (written : t.setup = (s.setup.put (within low high v) x).2)
      (sound : low ≤ v → v ≤ high → t.setup = x → SetupSound t) : SetupSound t := by
    rw [put_within] at written
    split at written
    · rename_i fits
      exact sound fits.1 fits.2 written
    · exact h.congr written
  obtain ⟨h1, h2, h3, h4, h5, h6, h7, h8, h9⟩ := h
  unfold Setup.write at result
  split at result
  case h_13 => exact SetupSound.congr ⟨h1, h2, h3, h4, h5, h6, h7, h8, h9⟩ result
  all_goals
    refine put result fun low high new => ?_
    constructor <;> rw [new] <;> first | assumption | exact ⟨low, high⟩

theorem setupSound_exec {c : Instr} {s t : State} (h : exec c s = .next t) (sound : SetupSound s) : SetupSound t := by
  by_cases host : isHostWord c = true
  · refine hostWord_keeps (I := SetupSound) (fun s t only sound => sound.congr ?_) (fun s c args _ sound => ?_) host h sound
    · rw [State.setup, only .station (by decide)]; rfl
    · obtain same | ⟨-, -, written⟩ | ⟨same, -⟩ := execute_station s c args
      · exact sound.congr (congrArg StationControl.setup same)
      · exact sound.write _ _ (congrArg StationControl.setup written)
      · exact sound.congr same.setup
  by_cases reset : isReset c = true
  · obtain rfl | ⟨-, defaults | same⟩ := exec_reset_cases reset h
    · exact sound
    · exact setupSound_of_defaults defaults
    · exact sound.congr same
  · obtain move | ⟨-, same, -⟩ := exec_station host reset h
    · exact sound.congr move.1.setup
    · exact sound.congr same.setup

/-- Settles O9: only SET writes a field, and only in its range. -/
theorem setupStaysInRange : Obligations.SetupStaysInRange := fun _ _ h sound =>
  step_keeps (P := SetupSound) (fun _ _ sound => sound.congr rfl) (fun _ sound => sound)
    (fun _ _ _ h sound => setupSound_exec h sound) h sound

/-! ### When a transmission begins -/

theorem Withdrawn.not_started {s t : State} (h : Withdrawn s t) (sending : t.sched.state = .sending) :
    s.sched.state = .sending := by
  rcases h with same | ⟨-, released⟩
  · rw [← same]; exact sending
  · simp [released, Scheduler.released] at sending

theorem leaveActive_not_started {x : Scheduler} (sending : x.leaveActive.state = .sending) : x.state = .sending := by
  unfold Scheduler.leaveActive at sending
  dsimp only at sending
  split at sending
  · simp at sending
  · exact sending

theorem execute_not_started (s : State) (c : Command) (args : List Word)
    (sending : (s.execute c args).after.sched.state = .sending) : s.sched.state = .sending := by
  have only := execute_only s c args
  cases c with
  | leave =>
    simp only [State.execute, State.leaveTrunk] at sending
    split at sending
    · rw [(acceptLeave_station s).1] at sending
      exact leaveActive_not_started sending
    · exact sending
  | discardHead =>
    simp only [State.execute, State.discard] at sending
    split at sending
    · exact sending
    · exact (dropHead_inner s).sched.not_started sending
  | _ => rwa [only .sched (by decide)] at sending

theorem takeDecision_not_started (s : State) (d : Decision) (sending : (s.takeDecision d).sched.state = .sending) :
    s.sched.state = .sending := by
  unfold State.takeDecision at sending
  split at sending
  · exact sending
  · rwa [frameError_only s .sched (by decide)] at sending
  · unfold State.goodFrame at sending
    split at sending
    · unfold State.clash at sending
      split at sending
      case h_2 =>
        rw [(enterMuted_station _ _).2.2.1] at sending
        exact leaveActive_not_started sending
      all_goals exact sending
    · exact (distribute_inner ((s.count .rxGood).heard _) _).sched.not_started sending

/-- A transmission begins by a hold-off running out in ACTIVE (R132). -/
theorem sending_begins {c : Instr} {s t : State} (h : exec c s = .next t) (sending : t.sched.state = .sending)
    (before : s.sched.state ≠ .sending) : (c = .holdoffRunsOut ∨ c = .selectionCommit) ∧ s.station.state = .active := by
  have only := only_of_exec h
  by_cases host : isHostWord c = true
  · exfalso
    obtain ⟨same, -⟩ | ⟨u, cmd, args, st, data, same, -, -, rfl, -⟩ := exec_hostWord_cases host h
    · rw [same .sched (by decide)] at sending
      exact before sending
    · have started := execute_not_started u cmd args sending
      rw [same .sched (by decide)] at started
      exact before started
  by_cases reset : isReset c = true
  · exfalso
    obtain rfl | ⟨⟨e, fresh⟩, -⟩ := exec_reset_cases reset h
    · exact before sending
    · simp [fresh.sched, Scheduler.atReset] at sending
  cases c with
  | holdoffRunsOut =>
    simp only [exec, execHoldoffRunsOut] at h
    split at h
    · rename_i due
      exact ⟨.inl rfl, (State.isActive_iff s).mp due.2.2⟩
    · cases h; exact absurd sending before
  | selectionCommit =>
    simp only [exec, execSelectionCommit] at h
    split at h
    · rename_i point
      simp only [State.selectionPoint, Bool.and_eq_true, State.isActive_iff] at point
      exact ⟨.inr rfl, point.1.1.2⟩
    · cases h; exact absurd sending before
  | dataWord w wend =>
    exfalso
    simp only [exec, execDataWord] at h
    split at h
    · cases h; exact before sending
    · split at h
      · rw [← Host.Outcome.next.inj h] at sending
        obtain inner | ⟨u, n, seq, inner, eq⟩ := takeDataWord_inner s w wend
        · exact before (inner.sched.not_started sending)
        · rw [eq] at sending
          exact before (inner.sched.not_started sending)
      · cases h; exact before sending
  | deliveryTake =>
    exfalso
    simp only [exec, execDeliveryTake] at h
    split at h
    · cases h; exact before sending
    · rw [← Host.Outcome.next.inj h, State.takeDelivery] at sending
      split at sending
      · exact before sending
      · dsimp only at sending
        split at sending
        · exact before ((dropHead_inner (s.putOut _ true)).sched.not_started sending)
        · exact before sending
  | deliveryTurn =>
    exfalso
    simp only [exec, execDeliveryTurn] at h
    split at h
    · split at h
      · rw [← Host.Outcome.next.inj h] at sending
        exact before ((serve_inner _ _).sched.not_started sending)
      · cases h; exact before sending
    · cases h; exact before sending
  | lineActivity =>
    exfalso
    simp only [exec, execLineActivity] at h
    split at h
    · cases h; exact before sending
    · rw [← Host.Outcome.next.inj h, State.defer] at sending
      split at sending
      · cases sending
      · exact before sending
  | frameEnd read =>
    exfalso
    rw [← Host.Outcome.next.inj h, State.readBackCells] at sending
    split at sending
    · rename_i started _ _; exact before started
    · exact before sending
  | collision read =>
    exfalso
    rw [← Host.Outcome.next.inj h, State.readBackCells] at sending
    split at sending
    · rename_i started _ _; exact before started
    · exact before sending
  | jamEnd =>
    exfalso
    simp only [exec, execJamEnd] at h
    split at h
    · rw [← Host.Outcome.next.inj h, transmitterFree_only _ .sched (by decide)] at sending
      cases sending
    · cases h; exact before sending
  | repairTimeoutRunsOut i =>
    exfalso
    simp only [exec, execRepairTimeoutRunsOut] at h
    split at h
    · split at h
      · cases h; exact before sending
      · rw [← Host.Outcome.next.inj h] at sending
        exact before ((giveUpRun_inner _ _).sched.not_started sending)
    · cases h; exact before sending
    · cases h; exact before sending
  | beaconTimerRunsOut =>
    exfalso
    simp only [exec, execBeaconTimerRunsOut] at h
    split at h <;> (cases h; exact before sending)
  | listenTimerRunsOut =>
    exfalso
    obtain eq | ⟨-, -, eq⟩ := exec_listenTimer_cases h
    · rw [eq] at sending
      exact before sending
    · rw [eq, offerAll_only _ .sched (by decide)] at sending
      exact before sending
  | frameError cells | clash cells | rxData cells | rxReplay cells | rxGapreq cells | rxBeacon cells =>
    exfalso
    rw [← Host.Outcome.next.inj h, State.burstEnds] at sending
    split at sending
    · exact before sending
    · split at sending
      · exact before sending
      · exact before sending
      · exact before (takeDecision_not_started (s.burstOver .waiting) _ sending)
  | masterReset | mrstRelease _ _ | partialReset => exact absurd rfl reset
  | _ => first
    | exact absurd rfl host
    | (rw [only .sched (by simp [blocks])] at sending; exact absurd sending before)

/-! ### The own epoch -/

theorem takeDataWord_ownEpoch (s : State) (w : Word) (wend : Bool) :
    (s.takeDataWord w wend).submission.ownEpoch = s.submission.ownEpoch := by
  have claim (s : State) (st : Store) : (s.applyStore st).submission = s.submission :=
    applyStore_only s st .submission (by decide)
  have reject (s : State) : (s.rejectSubmission wend).submission.ownEpoch = s.submission.ownEpoch := by
    simp [State.rejectSubmission, State.setAsm, State.raise, claim]
  unfold State.takeDataWord
  split
  · unfold State.wordZero
    split
    · rfl
    · split
      · rfl
      · split <;> rfl
  · unfold State.payloadWord
    dsimp only
    split
    · split
      · exact reject _
      · rfl
    · split
      · unfold State.completeMessage
        dsimp only
        split <;> simp [State.setAsm, State.raise, claim]
      · rfl
  · exact reject _
  · split <;> rfl

theorem takeFrame_ownEpoch {s t : State} {d : DutyRef} {f : Frame} (h : s.takeFrame d = some (f, t)) :
    t.submission.ownEpoch = s.submission.ownEpoch := by
  cases d with
  | replay d =>
    obtain ⟨⟨k, u⟩, take, eq⟩ := Option.map_eq_some_iff.mp h
    cases eq
    rw [takeReplay_only take .submission (by decide)]
  | gapreq i =>
    obtain ⟨u, take, eq⟩ := Option.map_eq_some_iff.mp h
    cases eq
    rw [takeRequest_only take .submission (by decide)]
  | data =>
    obtain ⟨⟨k, u⟩, take, eq⟩ := Option.map_eq_some_iff.mp h
    cases eq
    unfold State.takeData at take
    split at take
    · cases take
    · split at take <;> cases take
      rfl
  | beacon =>
    simp only [State.takeFrame] at h
    split at h <;> cases h
    rfl

theorem startCommitted_ownEpoch (s : State) (c : Commitment) :
    (s.startCommitted c).submission.ownEpoch = s.submission.ownEpoch := by
  unfold State.startCommitted
  split
  · rfl
  · rename_i r take
    exact takeFrame_ownEpoch (t := r.2) take

theorem dataEnded_ownEpoch (s : State) : s.dataEnded.submission.ownEpoch = s.submission.ownEpoch := by
  unfold State.dataEnded
  split
  · rfl
  · split
    · rw [tellOwnContext_only _ _ .submission (by decide), clearTx_only _ _ .submission (by decide)]
      rfl
    · rfl

theorem tellSent_ownEpoch (s : State) (d : DutyRef) : (s.tellSent d).submission.ownEpoch = s.submission.ownEpoch := by
  cases d with
  | replay d => exact congrArg Submission.ownEpoch (replaySent_only s d .submission (by decide))
  | gapreq i => exact congrArg Submission.ownEpoch (requestSent_only s i .submission (by decide))
  | data => exact dataEnded_ownEpoch s
  | beacon => rfl

theorem tellAbandoned_ownEpoch (s : State) (d : DutyRef) :
    (s.tellAbandoned d).submission.ownEpoch = s.submission.ownEpoch := by
  cases d with
  | replay d => exact congrArg Submission.ownEpoch (replayEnded_only s d .submission (by decide))
  | gapreq i => exact congrArg Submission.ownEpoch (requestAbandoned_only s i .submission (by decide))
  | data => exact dataEnded_ownEpoch s
  | beacon => rfl

theorem tellCollision_ownEpoch (s : State) (d : DutyRef) :
    (s.tellCollision d).submission.ownEpoch = s.submission.ownEpoch := by
  cases d with
  | replay d => exact congrArg Submission.ownEpoch (replayCollided_only s d .submission (by decide))
  | gapreq i => exact congrArg Submission.ownEpoch (requestCollided_only s i .submission (by decide))
  | data =>
    simp only [State.tellCollision, State.dataCollided]
    split
    · rfl
    · split <;> rfl
  | beacon =>
    simp only [State.tellCollision]
    split <;> rfl

theorem readBackCells_ownEpoch (s : State) (read : List (Option BurstCell)) :
    (s.readBackCells read).submission.ownEpoch = s.submission.ownEpoch := by
  unfold State.readBackCells
  split
  · rename_i c _ _ _ _
    split
    · unfold State.frameEnds
      rw [transmitterFree_only _ .submission (by decide)]
      exact tellSent_ownEpoch _ _
    · unfold State.collides
      split
      · exact tellCollision_ownEpoch _ _
      · have told : ((s.startJam.tellAbandoned c.duty).noteAbandon.toJamming).submission.ownEpoch =
            s.submission.ownEpoch := tellAbandoned_ownEpoch s.startJam c.duty
        unfold State.abandon
        dsimp only
        split
        · rw [muteRequest_only _ .submission (by decide)]
          exact told
        · exact told
    · rfl
  · rfl

/-- The own epoch changes at a reset, and by the JOIN that leaves SETUP (R47, R117, R165). -/
theorem ownEpoch_changes {c : Instr} {s t : State} (h : exec c s = .next t)
    (changed : t.submission.ownEpoch ≠ s.submission.ownEpoch) :
    isReset c = true ∨ s.station.state = .setup ∧ Completes s c .join := by
  have only := only_of_exec h
  by_cases reset : isReset c = true
  · exact .inl reset
  right
  by_cases host : isHostWord c = true
  · obtain ⟨same, -⟩ | ⟨u, cmd, args, st, data, same, -, -, rfl, completes⟩ := exec_hostWord_cases host h
    · exact absurd (congrArg Submission.ownEpoch (same .submission (by decide))) changed
    · have effect := execute_only u cmd args
      have before : u.submission = s.submission := same .submission (by decide)
      have station : u.station = s.station := same .station (by decide)
      cases cmd with
      | join =>
        refine ⟨?_, completes⟩
        by_contra outside
        apply changed
        have outside : u.station.state ≠ .setup := by rw [station]; exact outside
        rw [respond_only _ _ _ .submission (by decide), State.execute, State.joinTrunk, ← before]
        split
        · simp only [State.acceptJoin, outside, if_false]
          rfl
        · rfl
      | _ => exact absurd (congrArg Submission.ownEpoch ((effect .submission (by decide)).trans before)) changed
  exfalso
  apply changed
  cases c with
  | dataWord w wend =>
    simp only [exec, execDataWord] at h
    split at h
    · cases h; rfl
    · split at h
      · rw [← Host.Outcome.next.inj h]
        exact takeDataWord_ownEpoch s w wend
      · cases h; rfl
  | selectionCommit =>
    simp only [exec, execSelectionCommit] at h
    split at h
    · split at h
      · rw [← Host.Outcome.next.inj h, State.commit]
        dsimp only
        split
        · exact startCommitted_ownEpoch _ _
        · rfl
      · cases h; rfl
    · cases h; rfl
  | holdoffRunsOut =>
    simp only [exec, execHoldoffRunsOut] at h
    split at h
    · split at h
      · rw [← Host.Outcome.next.inj h]
        exact startCommitted_ownEpoch _ _
      · cases h; rfl
    · cases h; rfl
  | frameEnd read => rw [← Host.Outcome.next.inj h]; exact readBackCells_ownEpoch s read
  | collision read => rw [← Host.Outcome.next.inj h]; exact readBackCells_ownEpoch s read
  | masterReset | mrstRelease _ _ | partialReset => exact absurd rfl reset
  | _ => first
    | exact absurd rfl host
    | exact congrArg Submission.ownEpoch (only .submission (by simp [blocks]))

/-! ### Which commands change what Station Control holds -/

theorem setup_changes {c : Instr} {s t : State} (h : exec c s = .next t) (changed : t.setup ≠ s.setup) :
    c = .masterReset ∨ (∃ stn rate, c = .mrstRelease stn rate) ∨ s.station.state = .setup ∧ Completes s c .set := by
  by_cases host : isHostWord c = true
  · obtain ⟨same, -⟩ | ⟨u, cmd, args, st, data, same, -, -, rfl, completes⟩ := exec_hostWord_cases host h
    · exact absurd (congrArg StationControl.setup (same .station (by decide))) changed
    · have station : u.station = s.station := same .station (by decide)
      obtain still | ⟨rfl, inside, -⟩ | ⟨still, -⟩ := execute_station u cmd args
      · exact absurd (congrArg StationControl.setup (still.trans station)) changed
      · exact .inr (.inr ⟨by rw [← station]; exact inside, completes⟩)
      · exact absurd (still.setup.trans (congrArg StationControl.setup station)) changed
  by_cases reset : isReset c = true
  · cases c with
    | masterReset => exact .inl rfl
    | mrstRelease stn rate => exact .inr (.inl ⟨stn, rate, rfl⟩)
    | partialReset =>
      exfalso
      apply changed
      cases held : s.station.mrst
      · obtain ⟨u, run, -, station, -⟩ := exec_partialReset held
        obtain rfl : u = t := by rw [run] at h; exact Host.Outcome.next.inj h
        rw [State.setup, station]
        rfl
      · rw [exec_partialReset_held held] at h
        rw [Host.Outcome.next.inj h]
    | _ => exact absurd reset Bool.false_ne_true
  · obtain move | ⟨-, same, -⟩ := exec_station host reset h
    · exact absurd move.1.setup changed
    · exact absurd same.setup changed

theorem straps_change {c : Instr} {s t : State} (h : exec c s = .next t)
    (changed : t.stn ≠ s.stn ∨ t.station.rate ≠ s.station.rate) : ∃ stn rate, c = .mrstRelease stn rate := by
  by_contra other
  have stand : t.station.stn = s.station.stn ∧ t.station.rate = s.station.rate := by
    by_cases host : isHostWord c = true
    · obtain ⟨same, -⟩ | ⟨u, cmd, args, st, data, same, -, -, rfl, -⟩ := exec_hostWord_cases host h
      · rw [same .station (by decide)]; exact ⟨rfl, rfl⟩
      · have station : u.station = s.station := same .station (by decide)
        rw [respond_only _ _ _ .station (by decide)]
        obtain still | ⟨-, -, written⟩ | ⟨still, -⟩ := execute_station u cmd args
        · rw [still, station]; exact ⟨rfl, rfl⟩
        · rw [written, station]; exact ⟨rfl, rfl⟩
        · rw [still.stn, still.rate, station]; exact ⟨rfl, rfl⟩
    by_cases reset : isReset c = true
    · cases c with
      | masterReset =>
        rw [← Host.Outcome.next.inj h]
        exact ⟨rfl, rfl⟩
      | mrstRelease stn rate => exact absurd ⟨stn, rate, rfl⟩ other
      | partialReset =>
        cases held : s.station.mrst
        · obtain ⟨u, run, -, station, -⟩ := exec_partialReset held
          obtain rfl : u = t := by rw [run] at h; exact Host.Outcome.next.inj h
          rw [station]
          exact ⟨rfl, rfl⟩
        · rw [exec_partialReset_held held] at h
          rw [Host.Outcome.next.inj h]
          exact ⟨rfl, rfl⟩
      | _ => exact absurd reset Bool.false_ne_true
    · obtain move | ⟨-, same, -⟩ := exec_station host reset h
      · exact ⟨move.1.stn, move.1.rate⟩
      · exact ⟨same.stn, same.rate⟩
  exact changed.elim (fun c => c stand.1) fun c => c stand.2

/-- ACTIVE is entered by the listen timer from LISTENING alone (R141, R167). -/
theorem active_entered {c : Instr} {s t : State} (h : exec c s = .next t) (active : t.station.state = .active)
    (before : s.station.state ≠ .active) : c = .listenTimerRunsOut ∧ s.station.state = .listening := by
  by_cases host : isHostWord c = true
  · exfalso
    obtain ⟨same, -⟩ | ⟨u, cmd, args, st, data, same, -, -, rfl, -⟩ := exec_hostWord_cases host h
    · rw [same .station (by decide)] at active
      exact before active
    · have station : u.station = s.station := same .station (by decide)
      rw [respond_only _ _ _ .station (by decide)] at active
      obtain still | ⟨-, inside, written⟩ | ⟨-, ⟨-, -, l⟩ | ⟨-, -, l | l⟩ | ⟨-, -, l⟩⟩ := execute_station u cmd args
      · rw [still, station] at active; exact before active
      · rw [written] at active; rw [inside] at active; cases active
      all_goals rw [l] at active; cases active
  by_cases reset : isReset c = true
  · exfalso
    obtain rfl | ⟨⟨e, fresh⟩, -⟩ := exec_reset_cases reset h
    · exact before active
    · rcases fresh.state with off | off <;> simp [off] at active
  · obtain ⟨-, same | ⟨-, ready⟩ | ⟨started, -⟩⟩ | ⟨timer, -, listening, -⟩ :=
      exec_station host reset h
    · rw [same] at active; exact absurd active before
    · rw [ready] at active; cases active
    · exact absurd started before
    · exact ⟨timer, listening⟩

/-- Settles O59. -/
theorem stationChangesOnlyAsRuled : Obligations.StationChangesOnlyAsRuled := by
  intro c s t parser h
  have row {cmd : Command} {args : List Word} (words : hostWords c = some (cmd, args)) :
      (cmd = .set → ∃ field value, c = .set field value) ∧ (cmd = .join → c = .join) := by
    cases c <;> cases words <;> simp
  refine ⟨active_entered h, sending_begins h, straps_change h, fun changed => ?_, fun changed => ?_⟩
  · obtain master | release | ⟨inside, ⟨args, words⟩ | ⟨bare, -⟩ | ⟨collecting, last⟩⟩ := setup_changes h changed
    · exact .inl master
    · exact .inr (.inl release)
    · exact .inr (.inr ⟨inside, .inl ((row words).1 rfl)⟩)
    · cases bare
    · exact .inr (.inr ⟨inside, .inr ⟨collecting, last⟩⟩)
  · obtain reset | ⟨inside, ⟨args, words⟩ | ⟨-, word⟩ | ⟨⟨taken, collecting⟩, -⟩⟩ := ownEpoch_changes h changed
    · exact .inl reset
    · exact .inr ⟨inside, .inl ((row words).2 rfl)⟩
    · exact .inr ⟨inside, .inr word⟩
    · exact absurd (parser _ _ collecting) (Nat.not_lt_zero _)

end Sys2Proof.Machine
end

section
/-! Flags and counters only rise, but for resets, ACK_EVENTS and CLEAR_COUNTERS (R182, R184; O60). -/

open Sys2Proof

namespace Sys2Proof.Machine

set_option Elab.async false

/-- Every raised flag stays raised, and no counter falls. -/
structure Risen (s t : State) : Prop where
  flags : ∀ e : Event, s.isRaised e = true → t.isRaised e = true
  counters : List.Forall₂ (fun a b : Word => a.toNat ≤ b.toNat) s.counters.words t.counters.words

namespace Risen

theorem counters_refl (l : List Word) : List.Forall₂ (fun a b : Word => a.toNat ≤ b.toNat) l l := by
  induction l with
  | nil => exact .nil
  | cons a l ih => exact .cons (Nat.le_refl _) ih

theorem counters_trans {k l m : List Word} (h : List.Forall₂ (fun a b : Word => a.toNat ≤ b.toNat) k l)
    (g : List.Forall₂ (fun a b : Word => a.toNat ≤ b.toNat) l m) :
    List.Forall₂ (fun a b : Word => a.toNat ≤ b.toNat) k m := by
  induction h generalizing m with
  | nil => exact g
  | cons le _ ih =>
    cases g with
    | cons le' g => exact .cons (Nat.le_trans le le') (ih g)

theorem refl (s : State) : Risen s s := ⟨fun _ h => h, counters_refl _⟩

theorem trans {s t u : State} (h : Risen s t) (g : Risen t u) : Risen s u :=
  ⟨fun e raised => g.flags e (h.flags e raised), counters_trans h.counters g.counters⟩

theorem of_same {s t : State} (events : t.events = s.events) (counters : t.counters = s.counters) : Risen s t :=
  ⟨fun e raised => by rw [State.isRaised, events]; exact raised, by rw [counters]; exact counters_refl _⟩

theorem of_only {bs : List Block} {s t : State} (h : Only bs s t)
    (other : ∀ b ∈ bs, b ∉ [Block.events, .counters] := by decide) : Risen s t :=
  of_same (h .events fun k => other _ k (by decide)) (h .counters fun k => other _ k (by decide))

theorem raise (s : State) (e : Event) : Risen s (s.raise e) :=
  ⟨fun f raised => by rw [State.isRaised_raise, raised]; rfl, counters_refl _⟩

/-- A counter is increased and stops at 65535 (R184). -/
theorem addCount (s : State) (c : Counter) (n : Nat) : Risen s (s.addCount c n) := by
  refine ⟨fun _ raised => raised, ?_⟩
  cases c <;> simp [State.addCount, State.withCounters, Counters.add, Counters.words, satAdd_ge]

theorem count (s : State) (c : Counter) : Risen s (s.count c) := addCount s c 1

theorem foldl {α : Type} {f : State → α → State} (h : ∀ s a, Risen s (f s a)) (l : List α) (s : State) :
    Risen s (l.foldl f s) := by
  induction l generalizing s with
  | nil => exact refl s
  | cons a l ih => exact (h s a).trans (ih (f s a))

end Risen

/-! ### The operations that raise and count -/

theorem rejectSubmission_risen (s : State) (wend : Bool) : Risen s (s.rejectSubmission wend) :=
  ((Risen.of_only (applyStore_only s s.store.release.2)).trans (.raise _ _)).trans (.of_only (setAsm_only _ _))

theorem takeDataWord_risen (s : State) (w : Word) (wend : Bool) : Risen s (s.takeDataWord w wend) := by
  unfold State.takeDataWord
  split
  · unfold State.wordZero
    split
    · exact .raise _ _
    · split
      · exact (Risen.raise _ _).trans (.of_only (setAsm_only _ _))
      · split
        · exact .of_only ((applyStore_only _ _).then (withSubmission_only _ _))
        · exact .refl s
  · unfold State.payloadWord
    have written : Risen s ((s.withStore (s.store.writeReserved (s.submission.bytesOf w))).withSubmission
        { s.submission with taken := s.submission.taken + 1 }) :=
      .of_only ((withStore_only _ _).then (withSubmission_only _ _))
    dsimp only
    split
    · split
      · exact written.trans (rejectSubmission_risen _ _)
      · exact written
    · split
      · refine written.trans ?_
        unfold State.completeMessage
        dsimp only
        split
        · exact .of_only (((applyStore_only _ _).then (setAsm_only _ _)).then (withSubmission_only _ _))
        · exact (Risen.of_only ((applyStore_only _ _).then (setAsm_only _ _))).trans (.raise _ _)
        · exact .of_only ((applyStore_only _ _).then (setAsm_only _ _))
      · exact written.trans (.of_only (setAsm_only _ _))
  · exact rejectSubmission_risen _ _
  · split
    · exact .of_only (setAsm_only _ _)
    · exact .refl s

theorem serve_risen (s : State) (o : Station) : Risen s (s.serve o) := by
  unfold State.serve
  have pointer := Risen.of_only (withDelivery_only s { s.delivery with lastServed := o })
  dsimp only
  split
  · exact pointer.trans (.of_only (((applyStore_only _ _).then (enqueue_only _ _)).then (advance_only _ _ _)))
  · exact (((pointer.trans (.of_only (enqueue_only _ _))).trans (.raise _ _)).trans (.addCount _ _ _)).trans
      (.of_only (advance_only _ _ _))
  · exact ((pointer.trans (.of_only (enqueue_only _ _))).trans (.raise _ _)).trans (.of_only (advanceRestart_only _ _))
  · exact .refl s

theorem takeDelivery_risen (s : State) : Risen s s.takeDelivery := by
  unfold State.takeDelivery
  split
  · exact (Risen.of_only (putOut_only _ _ _)).trans (.raise _ _)
  · dsimp only
    split
    · exact .of_only ((putOut_only _ _ _).then (dropHead_only _))
    · exact .of_only ((putOut_only _ _ _).then (withDelivery_only _ _))

theorem takeResponse_risen (s : State) : Risen s s.takeResponse := by
  unfold State.takeResponse
  split
  · exact (Risen.of_only (putOut_only _ _ _)).trans (.raise _ _)
  · dsimp only
    split
    · exact .of_only ((putOut_only _ _ _).then (withControl_only _ _))
    · exact .of_only ((putOut_only _ _ _).then (withControl_only _ _))

theorem afterDueInsert_risen (s : State) (a : InsertAnswer) : Risen s (s.afterDueInsert a) := by
  unfold State.afterDueInsert
  split
  · exact (Risen.count _ _).trans (.raise _ _)
  · exact .refl s
  · exact .refl s

theorem classify_risen (s : State) (m : Message) : Risen s (s.classify m) := by
  have restart (u : State) : Risen u
      ((((u.insertFrame m.key.origin (m.entry Pins.onlyDue)).after.afterDueInsert
        (u.insertFrame m.key.origin (m.entry Pins.onlyDue)).answer)).endRestart m.key.origin) :=
    ((Risen.of_only (insertFrame_only _ _ _)).trans (afterDueInsert_risen _ _)).trans (.of_only (endRestart_only _ _))
  unfold State.classify
  dsimp only
  split
  · exact .refl s
  · unfold State.syncFrame
    exact ((Risen.of_only ((setCtx_only _ _ _).then (insertFrame_only _ _ _))).trans (afterDueInsert_risen _ _)).trans
      (.of_only (settle_only _ _ _ _))
  · split
    · unfold State.restartFrame
      dsimp only
      split
      · exact (Risen.of_only (beginRestart_only _ _ _ _ _ _)).trans (restart _)
      · exact (Risen.of_only (beginRestart_only _ _ _ _ _ _)).trans (restart _)
    · split
      · exact .count _ _
      · split
        · unfold State.behindFrame
          dsimp only
          split
          · exact .of_only ((insertFrame_only _ _ _).then (settle_only _ _ _ _))
          · exact .of_only (insertFrame_only _ _ _)
        · split
          · unfold State.windowFrame
            dsimp only
            split
            · exact .refl s
            · exact ((Risen.of_only (insertFrame_only _ _ _)).trans (afterDueInsert_risen _ _)).trans
                (.of_only ((setCtx_only _ _ _).then (settle_only _ _ _ _)))
          · unfold State.farFrame
            dsimp only
            split
            · exact .refl s
            · exact ((Risen.of_only ((setCtx_only _ _ _).then (insertFrame_only _ _ _))).trans
                (afterDueInsert_risen _ _)).trans (.of_only (settle_only _ _ _ _))

theorem examineKey_risen (requester : Station) (s : State) (k : Key) : Risen s (s.examineKey requester k) := by
  unfold State.examineKey
  split
  · dsimp only
    split
    · exact .of_only ((applyStore_only _ _).then (makeDuty_only _ _ _ _))
    · exact .refl s
    · exact .refl s
  · split
    · exact .count _ _
    · exact .refl s

theorem distribute_risen (s : State) (f : Frame) : Risen s (s.distribute f) := by
  unfold State.distribute
  split
  · exact (classify_risen _ _).trans (.of_only (cancelKey_only _ _))
  · unfold State.replayFrame
    dsimp only
    split
    · exact .of_only ((hearReplay_only _ _).then (cancelKey_only _ _))
    · exact (classify_risen _ _).trans (.of_only ((hearReplay_only _ _).then (cancelKey_only _ _)))
  · rename_i requester origin epoch first count
    refine (Risen.of_only (hearGapreq_only s origin epoch first count)).trans ?_
    unfold State.answerGapreq
    split
    · exact .foldl (fun s k => examineKey_risen _ s k) _ _
    · exact .refl _
  · exact .of_only (takeBeacon_only _ _ _ _)

theorem enterMuted_risen (s : State) (why : MuteReason) : Risen s (s.enterMuted why) :=
  ((Risen.of_only (withStation_only _ _)).trans (.raise _ _)).trans (.of_only (quitActive_only _))

theorem takeDecision_risen (s : State) (d : Decision) : Risen s (s.takeDecision d) := by
  unfold State.takeDecision
  split
  · exact .refl s
  · have noted := (Risen.count s .rxError).trans (.raise _ .rxError)
    unfold State.frameError
    dsimp only
    split
    · exact noted.trans (.of_only (startListenTimer_only _))
    · exact noted
  · unfold State.goodFrame
    split
    · unfold State.clash
      split
      · exact (Risen.raise _ _).trans (.of_only (startListenTimer_only _))
      · exact (Risen.raise _ _).trans (enterMuted_risen _ _)
      · exact .raise _ _
      · exact .refl s
      · exact .refl s
      · exact .refl s
    · exact ((Risen.count _ _).trans (.of_only (heard_only _ _))).trans (distribute_risen _ _)

theorem burstEnds_risen (s : State) (cells : List BurstCell) : Risen s (s.burstEnds cells) := by
  unfold State.burstEnds
  split
  · exact .refl s
  · split
    · exact .refl s
    · exact .of_only (burstOver_only _ _)
    · exact (Risen.of_only (burstOver_only _ _)).trans (takeDecision_risen _ _)

theorem tellSent_risen (s : State) (d : DutyRef) : Risen s (s.tellSent d) := by
  cases d with
  | replay d => exact (Risen.count _ _).trans (.of_only (replayEnded_only _ _))
  | gapreq i =>
    simp only [State.tellSent, State.requestSent]
    split
    · exact (Risen.count _ _).trans (.of_only ((setTracker_only _ _ _).then (dropRequest_only _ _)))
    · exact .count _ _
  | data => exact .of_only (dataEnded_only _)
  | beacon => exact .of_only (withSched_only _ _)

theorem readBackCells_risen (s : State) (read : List (Option BurstCell)) : Risen s (s.readBackCells read) := by
  unfold State.readBackCells
  split
  · rename_i c _ _ _ _
    split
    · exact ((Risen.of_only (withTrunk_only _ _)).trans (tellSent_risen _ _)).trans
        (.of_only ((withSched_only _ _).then (transmitterFree_only _)))
    · have jam : Risen s s.startJam := (Risen.count _ _).trans (.of_only (withTrunk_only _ _))
      unfold State.collides
      split
      · exact jam.trans (.of_only ((tellCollision_only _ _).then (withSched_only _ _)))
      · have told : Risen s ((s.startJam.tellAbandoned c.duty).noteAbandon.toJamming) :=
          (((jam.trans (.of_only (tellAbandoned_only _ _))).trans (.count _ _)).trans (.raise _ _)).trans
            (.of_only ((withSched_only _ _).then (withSched_only _ _)))
        unfold State.abandon State.muteRequest
        dsimp only
        split
        · split
          · exact told.trans (enterMuted_risen _ _)
          · exact told
        · exact told
    · exact .refl s
  · exact .refl s

/-- But for the resets and the host's words a command only raises and counts. -/
theorem exec_risen {c : Instr} (host : ¬ isHostWord c = true) (reset : ¬ isReset c = true) {s t : State}
    (h : exec c s = .next t) : Risen s t := by
  have only := only_of_exec h
  cases c with
  | dataWord w wend =>
    simp only [exec, execDataWord] at h
    split at h
    · exact Host.Outcome.next.inj h ▸ .refl s
    · split at h
      · exact Host.Outcome.next.inj h ▸ takeDataWord_risen s w wend
      · exact Host.Outcome.next.inj h ▸ .raise s _
  | deliveryTake =>
    simp only [exec, execDeliveryTake] at h
    split at h
    · exact Host.Outcome.next.inj h ▸ .of_only (putOut_only _ _ _)
    · exact Host.Outcome.next.inj h ▸ takeDelivery_risen s
  | responseTake =>
    simp only [exec, execResponseTake] at h
    split at h
    · exact Host.Outcome.next.inj h ▸ .of_only (putOut_only _ _ _)
    · exact Host.Outcome.next.inj h ▸ takeResponse_risen s
  | deliveryTurn =>
    simp only [exec, execDeliveryTurn] at h
    split at h
    · split at h
      · exact Host.Outcome.next.inj h ▸ serve_risen s _
      · exact Host.Outcome.next.inj h ▸ .refl s
    · exact Host.Outcome.next.inj h ▸ .refl s
  | frameEnd read => exact Host.Outcome.next.inj h ▸ readBackCells_risen s read
  | collision read => exact Host.Outcome.next.inj h ▸ readBackCells_risen s read
  | frameError cells | clash cells | rxData cells | rxReplay cells | rxGapreq cells | rxBeacon cells =>
    exact Host.Outcome.next.inj h ▸ burstEnds_risen s cells
  | listenTimerRunsOut =>
    obtain eq | ⟨-, -, eq⟩ := exec_listenTimer_cases h
    · exact eq ▸ .refl s
    · rw [eq]
      exact (((Risen.of_only (withStation_only _ _)).trans (.raise _ _)).trans (.of_only (withSched_only _ _))).trans
        (.of_only (offerAll_only _))
  | silenceTimerRunsOut n =>
    simp only [exec, execSilenceTimerRunsOut] at h
    split at h
    · exact Host.Outcome.next.inj h ▸ (Risen.of_only (setCtx_only _ _ _)).trans (.raise _ _)
    · exact Host.Outcome.next.inj h ▸ .refl s
  | _ => first
    | exact absurd rfl host
    | exact absurd rfl reset
    | exact .of_only only (by simp [blocks])

/-- Settles O60: what a host command's own row completes is that command, which has neither block but for ACK_EVENTS, the mask and
priority settings and CLEAR_COUNTERS. -/
theorem flagsAndCountersStand : Obligations.FlagsAndCountersStand := by
  intro c s t h reset words idle
  have pointwise (h : List.Forall₂ (fun a b : Word => a.toNat ≤ b.toNat) s.counters.words t.counters.words) (i : Nat)
      (a b : Word) (ha : s.counters.words[i]? = some a) (hb : t.counters.words[i]? = some b) : a.toNat ≤ b.toNat := by
    obtain ⟨hi, rfl⟩ := List.getElem?_eq_some_iff.mp ha
    obtain ⟨hj, rfl⟩ := List.getElem?_eq_some_iff.mp hb
    exact (List.forall₂_iff_get.mp h).2 i hi hj
  by_cases host : isHostWord c = true
  · obtain ⟨same, raised⟩ | ⟨u, cmd, args, st, data, same, raised, -, eq, completes⟩ := exec_hostWord_cases host h
    · exact ⟨fun _ => raised, fun _ => pointwise (by rw [same .counters (by decide)]; exact Risen.counters_refl _)⟩
    · have row : ∃ args, hostWords c = some (cmd, args) := by
        obtain row | ⟨-, word⟩ | ⟨⟨taken, collecting⟩, ⟨w, word⟩ | row⟩ := completes
        · exact row
        · exact absurd word (words _ _)
        · exact absurd word (words _ _)
        · rw [idle row] at collecting
          cases collecting
      obtain ⟨given, row⟩ := row
      have effect := execute_only u cmd args
      have events : t.events = (u.execute cmd args).after.events := by rw [eq]; rfl
      have counters : t.counters = (u.execute cmd args).after.counters := by rw [eq]; rfl
      have before : u.counters = s.counters := same .counters (by decide)
      refine ⟨fun ack e up => ?_, fun clear => pointwise ?_⟩
      · have up := raised e up
        rw [State.isRaised] at up ⊢
        cases cmd with
        | ackEvents => (cases c <;> cases row); exact absurd rfl (ack _)
        | setEventMask => rw [events]; exact up
        | setEventPriority => rw [events]; exact up
        | _ => rw [events, effect .events (by decide)]; exact up
      · cases cmd with
        | clearCounters => (cases c <;> cases row); exact absurd rfl clear
        | _ => rw [counters, effect .counters (by decide), before]; exact Risen.counters_refl _
  · have risen := exec_risen host (by simp [reset]) h
    exact ⟨fun _ => risen.flags, fun _ => pointwise risen.counters⟩

end Sys2Proof.Machine
end

section
/-! The Repair Tracker Pool stays consistent (O13). -/

open Sys2Proof

namespace Sys2Proof.Machine

set_option Elab.async false

/-! ### The pool, whatever the station state -/

/-- `TrackersSound` but for its last clause: what every small change keeps, in ACTIVE and while ACTIVE is being left. -/
structure TrackersCore (s : State) : Prop where
  consistent : ∀ t : Fin 8, (s.tracker t).Consistent
  single : ∀ t u : Fin 8, (s.tracker t).state ≠ .free → (s.tracker u).state ≠ .free →
    (s.tracker t).origin = (s.tracker u).origin → t = u
  held : ∀ o : Station, (s.ctx o).trackerHeld = true ↔ ∃ t : Fin 8, (s.tracker t).state ≠ .free ∧ (s.tracker t).origin = o
  requestsNodup : (s.pool.requests.map fun r => r.tracker).Nodup
  requests : ∀ t : Fin 8, (∃ r ∈ s.pool.requests, r.tracker = t) ↔ (s.tracker t).marker ≠ .none

theorem TrackersSound.core {s : State} (h : TrackersSound s) : TrackersCore s :=
  ⟨h.consistent, h.single, h.held, h.requestsNodup, h.requests⟩

theorem TrackersCore.sound {s : State} (h : TrackersCore s)
    (activeOnly : s.station.state ≠ .active → ∀ t : Fin 8, (s.tracker t).state = .free) : TrackersSound s :=
  ⟨h.consistent, h.single, h.held, h.requestsNodup, h.requests, activeOnly⟩

theorem TrackersCore.congr {s t : State} (h : TrackersCore s) (pool : t.pool = s.pool)
    (held : ∀ o, (t.ctx o).trackerHeld = (s.ctx o).trackerHeld) : TrackersCore t := by
  have tracker (i : Fin 8) : t.tracker i = s.tracker i := State.tracker_congr (congrArg TrackerPool.trackers pool) i
  obtain ⟨consistent, single, flags, nodup, requests⟩ := h
  constructor <;> simp only [tracker, held, pool]
  all_goals assumption

theorem TrackersCore.of_only {bs : List Block} {s t : State} (only : Only bs s t) (h : TrackersCore s)
    (other : ∀ b ∈ bs, b ∉ [Block.pool, .contexts] := by decide) : TrackersCore t :=
  h.congr (only .pool fun k => other _ k (by decide)) fun o => by
    rw [State.ctx_congr (only .contexts fun k => other _ k (by decide))]

/-- A tracker without timer and request is FREE or PARKED or in DELAY with its request out; a FREE one has no request. -/
theorem Tracker.Consistent.of_free {x : Tracker} (h : x.Consistent) (free : x.state = .free) :
    x.timer = .stopped ∧ x.marker = .none := by
  simpa only [Tracker.Consistent, free] using h

/-- A request is out or pending only in DELAY and PARKED, PENDING only in DELAY (Table 3.2). -/
theorem Tracker.Consistent.of_marker {x : Tracker} (h : x.Consistent) (asks : x.marker ≠ .none) :
    x.state = .delay ∧ x.timer = .stopped ∨ x.state = .parked ∧ x.timer = .stopped ∧ x.marker = .onWire := by
  unfold Tracker.Consistent at h
  cases hm : x.marker <;> cases hs : x.state <;> simp_all

/-- One tracker in service changes, the request list following its marker (R58). -/
theorem TrackersCore.change {s t : State} (h : TrackersCore s) (i : Fin 8) (x : Tracker)
    (trackers : ∀ j, t.tracker j = if j = i then x else s.tracker j)
    (held : ∀ o, (t.ctx o).trackerHeld = (s.ctx o).trackerHeld) (serving : (s.tracker i).state ≠ .free)
    (serves : x.state ≠ .free) (origin : x.origin = (s.tracker i).origin) (consistent : x.Consistent)
    (nodup : (t.pool.requests.map fun r => r.tracker).Nodup)
    (own : (∃ r ∈ t.pool.requests, r.tracker = i) ↔ x.marker ≠ .none)
    (others : ∀ j, j ≠ i → ((∃ r ∈ t.pool.requests, r.tracker = j) ↔ ∃ r ∈ s.pool.requests, r.tracker = j)) :
    TrackersCore t := by
  have state (j : Fin 8) : (t.tracker j).state ≠ .free ↔ (s.tracker j).state ≠ .free := by
    rw [trackers]
    split
    · rename_i eq; subst eq; exact iff_of_true serves serving
    · exact Iff.rfl
  have same (j : Fin 8) : (t.tracker j).origin = (s.tracker j).origin := by
    rw [trackers]
    split
    · rename_i eq; rw [eq, origin]
    · rfl
  refine ⟨fun j => ?_, fun j k hj hk eq => ?_, fun o => ?_, nodup, fun j => ?_⟩
  · rw [trackers]
    split
    · exact consistent
    · exact h.consistent j
  · rw [same, same] at eq
    exact h.single j k ((state j).mp hj) ((state k).mp hk) eq
  · rw [held, h.held]
    simp only [state, same]
  · rw [trackers]
    split
    · rename_i eq; subst eq; exact own
    · rename_i other; rw [others j other]; exact h.requests j

theorem mem_dropRequest {s : State} {i j : Fin 8} : (∃ r ∈ (s.dropRequest i).pool.requests, r.tracker = j) ↔
    j ≠ i ∧ ∃ r ∈ s.pool.requests, r.tracker = j := by
  simp only [requests_dropRequest, List.mem_filter, bne_iff_ne]
  constructor
  · rintro ⟨r, ⟨mem, other⟩, rfl⟩
    exact ⟨other, r, mem, rfl⟩
  · rintro ⟨other, r, mem, rfl⟩
    exact ⟨r, ⟨mem, other⟩, rfl⟩

theorem nodup_dropRequest {s : State} (h : (s.pool.requests.map fun r => r.tracker).Nodup) (i : Fin 8) :
    ((s.dropRequest i).pool.requests.map fun r => r.tracker).Nodup :=
  h.sublist (List.Sublist.map _ List.filter_sublist)

/-- A tracker in service changes and its request, if it had one, leaves the list. -/
theorem TrackersCore.unrequest {s t : State} (h : TrackersCore s) (i : Fin 8) (x : Tracker)
    (pool : t.pool = ((s.setTracker i x).dropRequest i).pool)
    (held : ∀ o, (t.ctx o).trackerHeld = (s.ctx o).trackerHeld) (serving : (s.tracker i).state ≠ .free)
    (serves : x.state ≠ .free) (origin : x.origin = (s.tracker i).origin) (consistent : x.Consistent)
    (marker : x.marker = .none) : TrackersCore t := by
  refine h.change i x (fun j => ?_) held serving serves origin consistent ?_ ?_ fun j other => ?_
  · rw [State.tracker_congr (congrArg TrackerPool.trackers pool), tracker_dropRequest, State.tracker_setTracker]
  · rw [pool]
    exact nodup_dropRequest (s := s.setTracker i x) h.requestsNodup i
  · rw [pool]
    exact iff_of_false (fun k => (mem_dropRequest.mp k).1 rfl) (by simp [marker])
  · rw [pool]
    exact mem_dropRequest.trans (and_iff_right other)

/-- A tracker in service changes, with a request out or pending after it exactly when before. -/
theorem TrackersCore.adjust {s t : State} (h : TrackersCore s) (i : Fin 8) (x : Tracker)
    (pool : t.pool = (s.setTracker i x).pool) (held : ∀ o, (t.ctx o).trackerHeld = (s.ctx o).trackerHeld)
    (serving : (s.tracker i).state ≠ .free) (serves : x.state ≠ .free) (origin : x.origin = (s.tracker i).origin)
    (consistent : x.Consistent) (marker : x.marker = .none ↔ (s.tracker i).marker = .none) : TrackersCore t := by
  have requests : t.pool.requests = s.pool.requests := by rw [pool]; rfl
  refine h.change i x (fun j => ?_) held serving serves origin consistent ?_ ?_ fun j _ => ?_
  · rw [State.tracker_congr (congrArg TrackerPool.trackers pool), State.tracker_setTracker]
  · rw [requests]; exact h.requestsNodup
  · rw [requests, h.requests i, Ne, Ne, marker]
  · rw [requests]

theorem TrackersCore.release {s : State} (h : TrackersCore s) (i : Fin 8) (serving : (s.tracker i).state ≠ .free) :
    TrackersCore (s.release i) where
  consistent j := by
    rw [release_tracker]
    split
    · exact ⟨rfl, rfl⟩
    · exact h.consistent j
  single j k hj hk eq := by
    rw [release_tracker] at hj hk
    rw [release_tracker, release_tracker] at eq
    split at hj
    · exact absurd rfl hj
    · split at hk
      · exact absurd rfl hk
      · rename_i hji hki
        rw [if_neg hji, if_neg hki] at eq
        exact h.single j k hj hk eq
  held o := by
    rw [release_ctx]
    split
    · rename_i eq
      refine iff_of_false (by simp) ?_
      rintro ⟨j, serves, origin⟩
      rw [release_tracker] at serves origin
      split at serves
      · exact serves rfl
      · rename_i other
        rw [if_neg other] at origin
        exact other (h.single j i serves serving (origin.trans eq))
    · rename_i other
      rw [h.held]
      refine exists_congr fun j => ?_
      rw [release_tracker]
      split
      · rename_i eq
        subst eq
        exact iff_of_false (fun k => other k.2.symm) fun k => k.1 rfl
      · exact Iff.rfl
  requestsNodup := by
    rw [release_requests]
    exact nodup_dropRequest h.requestsNodup i
  requests j := by
    have drop : (∃ r ∈ (s.release i).pool.requests, r.tracker = j) ↔ j ≠ i ∧ ∃ r ∈ s.pool.requests, r.tracker = j := by
      rw [release_requests]
      exact mem_dropRequest
    rw [drop, release_tracker, h.requests]
    split
    · rename_i eq; exact iff_of_false (fun k => k.1 eq) fun k => k rfl
    · rename_i other; exact and_iff_right other

theorem claimedTracker_consistent (s : State) (o : Station) (first : SeqNum) (count : Nat) :
    (s.claimedTracker o first count).Consistent ∧ (s.claimedTracker o first count).state ≠ .free ∧
      (s.claimedTracker o first count).origin = o ∧ (s.claimedTracker o first count).marker = .none := by
  unfold State.claimedTracker Tracker.Consistent
  by_cases h : s.peerClaimable = 0 <;> simp [h]

theorem claim_tracker (s : State) (i : Fin 8) (o : Station) (first : SeqNum) (count : Nat) (c : Context) (j : Fin 8) :
    ((s.setTracker i (s.claimedTracker o first count)).setCtx o c).tracker j =
      if j = i then s.claimedTracker o first count else s.tracker j := by
  rw [tracker_setCtx, State.tracker_setTracker]

theorem TrackersCore.claim {s : State} (h : TrackersCore s) (i : Fin 8) (o : Station)
    (free : (s.tracker i).state = .free) (alone : (s.ctx o).trackerHeld = false) : TrackersCore (s.claim i o) := by
  obtain eq | ⟨first, count, -, eq⟩ := claim_eq s i o
  · rw [eq]; exact h
  obtain ⟨consistent, serves, origin, marker⟩ := claimedTracker_consistent s o first count
  have unserved (j : Fin 8) (hj : (s.tracker j).state ≠ .free) : (s.tracker j).origin ≠ o := fun k => by
    have := (h.held o).mpr ⟨j, hj, k⟩
    simp [alone] at this
  rw [eq]
  refine ⟨fun j => ?_, fun j k hj hk same => ?_, fun p => ?_, h.requestsNodup, fun j => ?_⟩
  · rw [claim_tracker]
    split
    · exact consistent
    · exact h.consistent j
  · rw [claim_tracker] at hj hk
    rw [claim_tracker, claim_tracker] at same
    by_cases hji : j = i <;> by_cases hki : k = i
    · rw [hji, hki]
    · rw [if_pos hji, if_neg hki, origin] at same
      rw [if_neg hki] at hk
      exact absurd same.symm (unserved k hk)
    · rw [if_pos hki, if_neg hji, origin] at same
      rw [if_neg hji] at hj
      exact absurd same (unserved j hj)
    · rw [if_neg hji, if_neg hki] at same
      rw [if_neg hji] at hj
      rw [if_neg hki] at hk
      exact h.single j k hj hk same
  · rw [State.ctx_setCtx]
    split
    · rename_i hp
      subst hp
      exact iff_of_true rfl ⟨i, by rw [claim_tracker, if_pos rfl]; exact ⟨serves, origin⟩⟩
    · rename_i other
      rw [ctx_setTracker, h.held]
      refine exists_congr fun j => ?_
      rw [claim_tracker]
      split
      · rename_i eq
        subst eq
        exact iff_of_false (fun k => k.1 free) fun k => other (k.2.symm.trans origin)
      · exact Iff.rfl
  · rw [claim_tracker]
    split
    · rename_i eq
      subst eq
      have off := (h.requests j).not.mpr (by simp [(h.consistent j).of_free free])
      exact iff_of_false off (by simp [marker])
    · exact h.requests j

theorem Inner.core {s t : State} (inner : Inner s t) (h : TrackersCore s) : TrackersCore t := by
  induction inner with
  | refl => exact h
  | trans _ _ first second => exact second (first h)
  | elsewhere pool _ _ _ _ _ held => exact h.congr pool held
  | claim s i o free _ alone => exact h.claim i o free alone
  | release s i serving => exact h.release i serving
  | adjust s i x serving serves origin marker consistent =>
    exact h.adjust i x rfl (fun _ => rfl) serving serves origin (consistent (h.consistent i)) (by rw [marker])
  | unrequest s i x serving serves origin _ marker consistent =>
    refine h.unrequest i x (by rw [withdraw_pool]) (fun o => ?_) serving serves origin (consistent (h.consistent i)) marker
    rw [ctx_withdraw]
    rfl
  | emptyDuty s d => exact h.of_only (emptyDuty_only s d)
  | makeDuty s d k delay => exact h.of_only (makeDuty_only s d k delay)

/-- Outside ACTIVE no tracker is claimed. -/
theorem Inner.stays_free {s t : State} (inner : Inner s t) (inactive : s.station.state ≠ .active)
    (free : ∀ i, (s.tracker i).state = .free) : ∀ i, (t.tracker i).state = .free := by
  induction inner with
  | refl => exact free
  | trans first _ one two => exact two (by rw [first.station.1]; exact inactive) (one inactive free)
  | elsewhere pool =>
    intro i
    rw [State.tracker_congr (congrArg TrackerPool.trackers pool)]
    exact free i
  | claim s i o _ active => exact absurd ((State.isActive_iff s).mp active) inactive
  | release s i serving => exact absurd (free i) serving
  | adjust s i x serving => exact absurd (free i) serving
  | unrequest s i x serving => exact absurd (free i) serving
  | emptyDuty s d =>
    intro i
    rw [State.tracker_congr (congrArg TrackerPool.trackers ((emptyDuty_only s d) .pool (by decide)))]
    exact free i
  | makeDuty s d k delay =>
    intro i
    rw [State.tracker_congr (congrArg TrackerPool.trackers ((makeDuty_only s d k delay) .pool (by decide)))]
    exact free i

theorem TrackersSound.inner {s t : State} (h : TrackersSound s) (inner : Inner s t) : TrackersSound t :=
  (inner.core h.core).sound fun inactive => by
    rw [inner.station.1] at inactive
    exact inner.stays_free inactive (h.activeOnly inactive)

theorem TrackersSound.congr {s t : State} (h : TrackersSound s) (pool : t.pool = s.pool)
    (held : ∀ o, (t.ctx o).trackerHeld = (s.ctx o).trackerHeld)
    (station : t.station.state ≠ .active → s.station.state ≠ .active) : TrackersSound t :=
  (h.core.congr pool held).sound fun inactive i => by
    rw [State.tracker_congr (congrArg TrackerPool.trackers pool)]
    exact h.activeOnly (station inactive) i

theorem TrackersSound.of_only {bs : List Block} {s t : State} (only : Only bs s t) (h : TrackersSound s)
    (other : ∀ b ∈ bs, b ∉ [Block.pool, .contexts, .station] := by decide) : TrackersSound t :=
  h.congr (only .pool fun k => other _ k (by decide))
    (fun o => by rw [State.ctx_congr (only .contexts fun k => other _ k (by decide))])
    (by rw [only .station fun k => other _ k (by decide)]; exact id)

/-! ### Leaving ACTIVE frees every tracker -/

/-- A tracker once it is freed (R53). -/
def Tracker.freed (x : Tracker) : Tracker :=
  if x.state = .free then x else { x with state := .free, timer := .stopped, marker := .none, lastOrigin := x.origin }

theorem Tracker.freed_state (x : Tracker) : x.freed.state = .free := by
  unfold Tracker.freed
  split
  · rename_i h; exact h
  · rfl

theorem freeTracker_tracker {s : State} (inactive : s.isActive = false) (i j : Fin 8) :
    (s.freeTracker i).tracker j = if j = i then (s.tracker j).freed else s.tracker j := by
  have still : (s.release i).isActive = false := by rw [State.isActive, release_station]; exact inactive
  rw [freeTracker_eq]
  split
  · rename_i free
    split
    · rename_i eq; subst eq; simp [Tracker.freed, free]
    · rfl
  · rename_i serving
    rw [still, if_neg (by simp), release_tracker]
    split
    · rename_i eq; subst eq; simp [Tracker.freed, serving]
    · rfl

theorem freeTrackers_tracker (l : List (Fin 8)) {s : State} (inactive : s.isActive = false) (j : Fin 8) :
    (l.foldl State.freeTracker s).tracker j = if j ∈ l then (s.tracker j).freed else s.tracker j := by
  induction l generalizing s with
  | nil => rfl
  | cons i l ih =>
    have still : (s.freeTracker i).isActive = false := by
      rw [State.isActive, freeTracker_only s i .station (by decide)]; exact inactive
    have again : (s.tracker j).freed.freed = (s.tracker j).freed := by
      rw [Tracker.freed, if_pos (Tracker.freed_state _)]
    rw [List.foldl_cons, ih still, freeTracker_tracker inactive]
    by_cases hj : j = i <;> by_cases hl : j ∈ l <;> simp_all

theorem freeAllTrackers_tracker {s : State} (inactive : s.isActive = false) (j : Fin 8) :
    s.freeAllTrackers.tracker j = (s.tracker j).freed := by
  rw [State.freeAllTrackers, freeTrackers_tracker _ inactive, if_pos (show j ∈ allTrackers from List.mem_finRange j)]

theorem quitActive_sound {s : State} (h : TrackersCore s) (inactive : s.isActive = false) :
    TrackersSound s.quitActive := by
  have there : (s.withSched s.sched.leaveActive).dropDuties.isActive = false := by
    rw [State.isActive, dropDuties_only _ .station (by decide)]; exact inactive
  refine ((quitActive_inner s).core (h.of_only (withSched_only _ _))).sound fun _ j => ?_
  rw [State.quitActive, freeAllTrackers_tracker there]
  exact Tracker.freed_state _

theorem isActive_of_ne {s : State} (h : s.station.state ≠ .active) : s.isActive = false := by
  cases hs : s.isActive
  · rfl
  · exact absurd ((State.isActive_iff s).mp hs) h

theorem TrackersSound.enterMuted {s : State} (h : TrackersSound s) (why : MuteReason) : TrackersSound (s.enterMuted why) :=
  quitActive_sound (h.core.of_only ((withStation_only _ _).then (raise_only _ _))) (isActive_of_ne (by simp [State.raise]))

theorem mapContexts_held {s t : State} {f : Context → Context} (map : t.contexts = s.contexts.map f)
    (h : ∀ c, (f c).trackerHeld = c.trackerHeld) (o : Station) : (t.ctx o).trackerHeld = (s.ctx o).trackerHeld := by
  simp [State.ctx, map, h]

theorem TrackersSound.enterReady {s : State} (h : TrackersSound s) (inactive : s.station.state ≠ .active) :
    TrackersSound s.enterReady :=
  h.congr rfl (mapContexts_held (f := fun c => { c with silenceTimer := none }) rfl fun _ => rfl) fun _ => inactive

theorem TrackersSound.transmitterFree {s : State} (h : TrackersSound s) : TrackersSound s.transmitterFree := by
  unfold State.transmitterFree
  split
  · rename_i leaving
    exact h.enterReady (by simp [leaving])
  · exact h

theorem TrackersSound.muteRequest {s : State} (h : TrackersSound s) : TrackersSound s.muteRequest := by
  unfold State.muteRequest
  split
  · exact h.enterMuted _
  · exact h

/-! ### Requests on the wire -/

/-- A tracker in service changes: outside ACTIVE there is none. -/
theorem TrackersSound.of_core {s t : State} (h : TrackersSound s) (core : TrackersCore t) (i : Fin 8)
    (serving : (s.tracker i).state ≠ .free) (station : t.station = s.station) : TrackersSound t :=
  core.sound fun inactive => by
    rw [station] at inactive
    exact absurd (h.activeOnly inactive i) serving

theorem TrackersSound.tellSent {s : State} (h : TrackersSound s) (d : DutyRef) : TrackersSound (s.tellSent d) := by
  cases d with
  | replay d => exact h.inner ((Inner.of_only (count_only s .replaysSent)).trans (replayEnded_inner _ _))
  | gapreq i =>
    have counted : TrackersSound (s.count .requestsSent) := h.of_only (count_only _ _)
    simp only [State.tellSent, State.requestSent]
    split
    · rename_i asks
      obtain ⟨delay, -⟩ | ⟨parked, stopped, -⟩ := (counted.consistent i).of_marker (by simp [asks])
      · refine counted.of_core (counted.core.unrequest i _ rfl (fun _ => rfl) (by simp [delay]) ?_ ?_ ?_ ?_) i
          (by simp [delay]) rfl
        all_goals simp [delay, Tracker.Consistent]
      · refine counted.of_core (counted.core.unrequest i _ rfl (fun _ => rfl) (by simp [parked]) ?_ ?_ ?_ ?_) i
          (by simp [parked]) rfl
        all_goals simp [parked, stopped, Tracker.Consistent]
    · exact counted
  | data =>
    simp only [State.tellSent, State.dataEnded]
    split
    · exact h
    · split
      · rename_i x rest _ _
        have claim := (h.of_only (withSubmission_only s { s.submission with queue := rest, nextUntx := x.seq + 1 })).inner
          (applyStore_inner _ (s.store.clearTx (s.ownKey x.seq)).2)
        refine claim.inner (?_ : Inner _ (State.tellOwnContext _ _))
        unfold State.tellOwnContext
        split
        · exact .setCtx _ _ _
        · exact .refl _
      · exact h
  | beacon => exact h.of_only (withSched_only _ _)

theorem TrackersSound.tellAbandoned {s : State} (h : TrackersSound s) (d : DutyRef) : TrackersSound (s.tellAbandoned d) := by
  cases d with
  | replay d => exact h.inner (replayEnded_inner _ _)
  | gapreq i =>
    simp only [State.tellAbandoned, State.requestAbandoned]
    split
    · rename_i asks
      obtain ⟨delay, -⟩ | ⟨parked, stopped, -⟩ := (h.consistent i).of_marker (by simp [asks])
      · refine h.of_core (h.core.unrequest i _ rfl (fun _ => rfl) (by simp [delay]) ?_ ?_ ?_ ?_) i (by simp [delay]) rfl
        all_goals simp [delay, Tracker.Consistent]
      · refine h.of_core (h.core.unrequest i _ rfl (fun _ => rfl) (by simp [parked]) ?_ ?_ ?_ ?_) i (by simp [parked]) rfl
        all_goals simp [parked, stopped, Tracker.Consistent]
    · exact h
  | data => exact h.tellSent .data
  | beacon => exact h.of_only (withSched_only _ _)

theorem TrackersSound.tellCollision {s : State} (h : TrackersSound s) (d : DutyRef) : TrackersSound (s.tellCollision d) := by
  cases d with
  | replay d => exact h.of_only (replayCollided_only _ _)
  | gapreq i =>
    simp only [State.tellCollision, State.requestCollided]
    split
    · rename_i asks
      obtain ⟨delay, stopped⟩ | ⟨parked, stopped, -⟩ := (h.consistent i).of_marker (by simp [asks])
      · rw [if_neg (by simp [delay])]
        refine h.of_core (h.core.change i { s.tracker i with marker := .pending }
          (fun j => by rw [State.tracker_setRequests, State.tracker_setTracker]) (fun _ => rfl) (by simp [delay])
          (by simp [delay]) rfl (by simp [Tracker.Consistent, delay, stopped]) ?_ ?_ fun j _ => ?_) i (by simp [delay]) rfl
        · have same : (fun r : Request => (if r.tracker = i then { r with count := r.count + 1 } else r).tracker) =
              fun r => r.tracker := by
            funext r
            split <;> rfl
          simpa [State.setRequests, Function.comp_def, same] using h.requestsNodup
        · have out := (h.requests i).mpr (by simp [asks])
          obtain ⟨r, mem, eq⟩ := out
          refine iff_of_true ⟨{ r with count := r.count + 1 }, ?_, eq⟩ (by simp)
          exact List.mem_map.mpr ⟨r, mem, if_pos eq⟩
        · constructor
          · rintro ⟨r, mem, rfl⟩
            obtain ⟨r', mem', rfl⟩ := List.mem_map.mp mem
            exact ⟨r', mem', by split <;> rfl⟩
          · rintro ⟨r, mem, rfl⟩
            exact ⟨_, List.mem_map.mpr ⟨r, mem, rfl⟩, by split <;> rfl⟩
      · rw [if_pos parked]
        refine h.of_core (h.core.unrequest i _ rfl (fun _ => rfl) (by simp [parked]) ?_ ?_ ?_ ?_) i (by simp [parked]) rfl
        all_goals simp [parked, stopped, Tracker.Consistent]
    · exact h
  | data => exact h.of_only (dataCollided_only _)
  | beacon =>
    simp only [State.tellCollision]
    split
    · exact h.of_only (withSched_only _ _)
    · exact h

theorem TrackersSound.readBackCells {s : State} (h : TrackersSound s) (read : List (Option BurstCell)) :
    TrackersSound (s.readBackCells read) := by
  unfold State.readBackCells
  split
  · rename_i c _ _ _ _
    split
    · exact (((h.of_only (withTrunk_only _ _)).tellSent c.duty).of_only (withSched_only _ _)).transmitterFree
    · have jam : TrackersSound s.startJam := h.of_only (startJam_only s)
      unfold State.collides
      split
      · exact (jam.tellCollision c.duty).of_only (withSched_only _ _)
      · have told : TrackersSound ((s.startJam.tellAbandoned c.duty).noteAbandon.toJamming) :=
          (jam.tellAbandoned c.duty).of_only ((noteAbandon_only _).then (withSched_only _ _))
        unfold State.abandon
        dsimp only
        split
        · exact told.muteRequest
        · exact told
    · exact h
  · exact h

theorem TrackersSound.takeFrame {s t : State} (h : TrackersSound s) {d : DutyRef} {f : Frame}
    (take : s.takeFrame d = some (f, t)) : TrackersSound t := by
  cases d with
  | replay d =>
    obtain ⟨⟨k, u⟩, taken, eq⟩ := Option.map_eq_some_iff.mp take
    cases eq
    exact h.of_only (takeReplay_only taken)
  | gapreq i =>
    obtain ⟨u, take, eq⟩ := Option.map_eq_some_iff.mp take
    cases eq
    simp only [State.takeRequest] at take
    split at take <;> cases take
    rename_i pending
    obtain ⟨delay, stopped⟩ | ⟨-, -, wire⟩ := (h.consistent i).of_marker (by simp [pending])
    · refine h.of_core (h.core.adjust i _ rfl (fun _ => rfl) (by simp [delay]) ?_ ?_ ?_ ?_) i (by simp [delay]) rfl
      all_goals simp [delay, stopped, pending, Tracker.Consistent]
    · simp [pending] at wire
  | data =>
    obtain ⟨⟨k, u⟩, taken, eq⟩ := Option.map_eq_some_iff.mp take
    cases eq
    exact h.of_only (takeData_only taken)
  | beacon =>
    simp only [State.takeFrame] at take
    split at take <;> cases take
    exact h

theorem TrackersSound.startCommitted {s : State} (h : TrackersSound s) (c : Commitment) :
    TrackersSound (s.startCommitted c) := by
  unfold State.startCommitted
  split
  · exact h.of_only (releaseCommitment_only s)
  · rename_i r take
    exact (h.takeFrame (t := r.2) take).of_only ((withTrunk_only _ _).then (withSched_only _ _))

/-! ### Bursts, host commands, timers -/

theorem TrackersSound.takeDecision {s : State} (h : TrackersSound s) (d : Decision) : TrackersSound (s.takeDecision d) := by
  have listen (s : State) (h : TrackersSound s) : TrackersSound s.startListenTimer := h.congr rfl (fun _ => rfl) id
  unfold State.takeDecision
  split
  · exact h
  · have noted : TrackersSound ((s.count .rxError).raise .rxError) := h.of_only ((count_only _ _).then (raise_only _ _))
    unfold State.frameError
    dsimp only
    split
    · exact listen _ noted
    · exact noted
  · unfold State.goodFrame
    split
    · have raised : TrackersSound (s.raise .clash) := h.of_only (raise_only _ _)
      unfold State.clash
      split
      · exact listen _ raised
      · exact raised.enterMuted _
      · exact raised
      · exact h
      · exact h
      · exact h
    · exact h.inner (((Inner.of_only (count_only _ _)).trans (heard_inner _ _)).trans (distribute_inner _ _))

theorem TrackersSound.acceptJoin {s : State} (h : TrackersSound s)
    (off : s.station.state = .setup ∨ s.station.state = .ready) : TrackersSound s.acceptJoin := by
  have inactive : s.station.state ≠ .active := by rcases off with h | h <;> simp [h]
  refine h.congr (acceptJoin_only s .pool (by decide)) (fun o => ?_) fun _ => inactive
  unfold State.acceptJoin
  dsimp only
  split
  · rw [State.ctx_setCtx]
    split
    · rename_i eq; rw [eq]
    · rfl
  · exact mapContexts_held (f := fun c => if c.heardSinceReset then { c with silenceTimer := some s.silencePeriod } else c)
      rfl (fun c => by split <;> rfl) o

theorem enterReady_state (s : State) : s.enterReady.station.state = .ready := rfl

theorem TrackersCore.enterReady {s : State} (h : TrackersCore s) : TrackersCore s.enterReady :=
  h.congr rfl (mapContexts_held (f := fun c => { c with silenceTimer := none }) rfl fun _ => rfl)

theorem TrackersSound.acceptLeave {s : State} (h : TrackersSound s) : TrackersSound s.acceptLeave := by
  unfold State.acceptLeave
  split
  · exact quitActive_sound (h.core.of_only (withStation_only _ _)) (isActive_of_ne nofun)
  · exact quitActive_sound h.core.enterReady (isActive_of_ne (by rw [enterReady_state]; nofun))

theorem TrackersSound.execute {s : State} (h : TrackersSound s) (c : Command) (args : List Word) :
    TrackersSound (s.execute c args).after := by
  have only := execute_only s c args
  cases c with
  | set =>
    simp only [State.execute, State.setField]
    split
    · exact h.congr rfl (fun _ => rfl) id
    · exact h
  | join =>
    simp only [State.execute, State.joinTrunk]
    split
    · rename_i off
      exact h.acceptJoin off
    · exact h
  | leave =>
    simp only [State.execute, State.leaveTrunk]
    split
    · exact h.acceptLeave
    · exact h
  | recover =>
    simp only [State.execute, State.recoverStation]
    split
    · rename_i muted
      exact h.congr rfl (fun _ => rfl) fun _ => by simp [muted]
    · exact h
  | discardHead =>
    simp only [State.execute, State.discard]
    split
    · exact h
    · exact h.inner (dropHead_inner s)
  | _ => exact h.of_only only

theorem offer_tracker_other (s : State) (i j : Fin 8) (other : j ≠ i) : (s.offer i).tracker j = s.tracker j := by
  unfold State.offer
  split
  · rename_i o _
    obtain eq | ⟨first, count, -, eq⟩ := claim_eq s i o
    · rw [eq]
    · rw [eq, claim_tracker, if_neg other]
  · rfl

/-- At the entry to ACTIVE every tracker is FREE and is offered to the waiting origins (R56). -/
theorem offerAll_inner {s : State} (active : s.isActive = true) (free : ∀ i, (s.tracker i).state = .free) :
    Inner s s.offerAll := by
  have offers (l : List (Fin 8)) (nodup : l.Nodup) (s : State) (active : s.isActive = true)
      (free : ∀ i ∈ l, (s.tracker i).state = .free) : Inner s (l.foldl State.offer s) := by
    induction l generalizing s with
    | nil => exact .refl s
    | cons i l ih =>
      obtain ⟨fresh, nodup⟩ := List.nodup_cons.mp nodup
      have first := offer_inner (free i (by simp)) active
      refine first.trans (ih nodup _ ?_ fun j hj => ?_)
      · rw [State.isActive, first.station.1]; exact active
      · rw [offer_tracker_other s i j (by rintro rfl; exact fresh hj)]
        exact free j (by simp [hj])
  exact offers _ (List.nodup_finRange 8) s active fun i _ => free i

theorem TrackersSound.listenTimer {s t : State} (h : TrackersSound s) (e : exec .listenTimerRunsOut s = .next t) :
    TrackersSound t := by
  obtain eq | ⟨listening, -, eq⟩ := exec_listenTimer_cases e
  · rw [eq]; exact h
  · have free : ∀ i, (s.activated.tracker i).state = .free := h.activeOnly (by simp [listening])
    have core := h.core.of_only (activated_only s)
    have active : s.activated.isActive = true := rfl
    have inner := offerAll_inner active free
    rw [eq]
    refine (inner.core core).sound fun inactive => ?_
    rw [inner.station.1] at inactive
    exact absurd rfl inactive

theorem TrackersSound.requestDelay {s t : State} (h : TrackersSound s) {i : Fin 8}
    (e : exec (.requestDelayRunsOut i) s = .next t) : TrackersSound t := by
  simp only [exec, execRequestDelayRunsOut] at e
  split at e
  · rename_i slots running
    have unasked : (s.tracker i).state = .delay ∧ (s.tracker i).marker = .none := by
      have c := h.consistent i
      unfold Tracker.Consistent at c
      cases hs : (s.tracker i).state <;> simp_all
    obtain ⟨delay, unasked⟩ := unasked
    have absent := (h.requests i).not.mpr (by simp [unasked])
    rw [← Host.Outcome.next.inj e]
    refine h.of_core (h.core.change i { s.tracker i with timer := .stopped, marker := .pending }
      (fun j => by rw [State.tracker_setRequests, State.tracker_setTracker]) (fun _ => rfl) (by simp [delay])
      (by simp [delay]) rfl (by simp [Tracker.Consistent, delay]) ?_ ?_ fun j other => ?_) i (by simp [delay]) rfl
    · simp only [State.pool_setRequests_requests, List.map_append, List.map_cons, List.map_nil]
      refine List.Nodup.append h.requestsNodup (by simp) ?_
      simpa [List.Disjoint] using absent
    · simp
    · simp [Ne.symm other]
  · exact Host.Outcome.next.inj e ▸ h
  · exact Host.Outcome.next.inj e ▸ h

theorem TrackersSound.repairTimeout {s t : State} (h : TrackersSound s) {i : Fin 8}
    (e : exec (.repairTimeoutRunsOut i) s = .next t) : TrackersSound t := by
  simp only [exec, execRepairTimeoutRunsOut] at e
  split at e
  · rename_i slots running
    split at e
    · have waits : (s.tracker i).state = .wait ∧ (s.tracker i).marker = .none := by
        have c := h.consistent i
        unfold Tracker.Consistent at c
        cases hs : (s.tracker i).state <;> simp_all
      obtain ⟨wait, unasked⟩ := waits
      rw [← Host.Outcome.next.inj e]
      refine h.of_core (h.core.adjust i _ rfl (fun _ => rfl) (by simp [wait]) ?_ ?_ ?_ ?_) i (by simp [wait]) rfl
      all_goals simp [unasked, Tracker.Consistent]
    · exact Host.Outcome.next.inj e ▸ h.inner (giveUpRun_inner _ _)
  · exact Host.Outcome.next.inj e ▸ h
  · exact Host.Outcome.next.inj e ▸ h

/-! ### Every command -/

theorem trackersSound_exec {c : Instr} {s t : State} (e : exec c s = .next t) (h : TrackersSound s) : TrackersSound t := by
  by_cases host : isHostWord c = true
  · exact hostWord_keeps (I := TrackersSound) (fun s t only h => h.of_only only) (fun s c args _ h => h.execute c args) host e h
  by_cases reset : isReset c = true
  · obtain rfl | ⟨⟨e, fresh⟩, -⟩ := exec_reset_cases reset e
    · exact h
    · exact fresh.trackersSound
  have only := only_of_exec e
  cases c with
  | dataWord w wend =>
    simp only [exec, execDataWord] at e
    split at e
    · exact Host.Outcome.next.inj e ▸ h
    · split at e
      · rw [← Host.Outcome.next.inj e]
        obtain inner | ⟨u, n, seq, inner, eq⟩ := takeDataWord_inner s w wend
        · exact h.inner inner
        · rw [eq]
          exact (h.inner inner).of_only (withSubmission_only _ _)
      · exact Host.Outcome.next.inj e ▸ h.of_only (raise_only _ _)
  | deliveryTake =>
    simp only [exec, execDeliveryTake] at e
    split at e
    · exact Host.Outcome.next.inj e ▸ h.of_only (putOut_only _ _ _)
    · rw [← Host.Outcome.next.inj e, State.takeDelivery]
      split
      · exact h.of_only ((putOut_only _ _ _).then (raise_only _ _))
      · dsimp only
        split
        · exact (h.of_only (putOut_only _ _ _)).inner (dropHead_inner _)
        · exact h.of_only ((putOut_only _ _ _).then (withDelivery_only _ _))
  | deliveryTurn =>
    simp only [exec, execDeliveryTurn] at e
    split at e
    · split at e
      · exact Host.Outcome.next.inj e ▸ h.inner (serve_inner _ _)
      · exact Host.Outcome.next.inj e ▸ h
    · exact Host.Outcome.next.inj e ▸ h
  | selectionCommit =>
    simp only [exec, execSelectionCommit] at e
    split at e
    · split at e
      · rw [← Host.Outcome.next.inj e, State.commit]
        have held := fun x => h.of_only (withSched_only s x)
        dsimp only
        split
        · exact (held _).startCommitted _
        · exact held _
      · exact Host.Outcome.next.inj e ▸ h
    · exact Host.Outcome.next.inj e ▸ h
  | holdoffRunsOut =>
    simp only [exec, execHoldoffRunsOut] at e
    split at e
    · split at e
      · exact Host.Outcome.next.inj e ▸ h.startCommitted _
      · exact Host.Outcome.next.inj e ▸ h
    · exact Host.Outcome.next.inj e ▸ h
  | frameEnd read => exact Host.Outcome.next.inj e ▸ h.readBackCells read
  | collision read => exact Host.Outcome.next.inj e ▸ h.readBackCells read
  | jamEnd =>
    simp only [exec, execJamEnd] at e
    split at e
    · exact Host.Outcome.next.inj e ▸ (h.of_only (withSched_only _ _)).transmitterFree
    · exact Host.Outcome.next.inj e ▸ h
  | frameError cells | clash cells | rxData cells | rxReplay cells | rxGapreq cells | rxBeacon cells =>
    rw [← Host.Outcome.next.inj e, State.burstEnds]
    split
    · exact h
    · split
      · exact h
      · exact h.of_only (burstOver_only _ _)
      · exact (h.of_only (burstOver_only _ _)).takeDecision _
  | requestDelayRunsOut i => exact h.requestDelay e
  | repairTimeoutRunsOut i => exact h.repairTimeout e
  | listenTimerRunsOut => exact h.listenTimer e
  | silenceTimerRunsOut n =>
    simp only [exec, execSilenceTimerRunsOut] at e
    split at e
    · exact Host.Outcome.next.inj e ▸ (h.inner (Inner.setCtx _ _ _)).of_only (raise_only _ _)
    · exact Host.Outcome.next.inj e ▸ h
  | _ => first
    | exact absurd rfl host
    | exact absurd rfl reset
    | exact h.of_only only (by simp [blocks])

/-- Settles O13. -/
theorem trackersStaySound : Obligations.TrackersStaySound := fun _ _ e h =>
  step_keeps (P := TrackersSound) (fun s l h => h.of_only (withPending_only s l)) (fun _ h => h)
    (fun _ _ _ e h => trackersSound_exec e h) e h

end Sys2Proof.Machine
end

section
/-! What is on the wire is the Scheduler's commitment (O19). -/

open Sys2Proof

namespace Sys2Proof.Machine

set_option Elab.async false

/-! ### Fewer on the wire, nothing less to be taken -/

/-- Nothing new comes on the wire; the Scheduler keeps its commitment, or releases that of a hold-off; what is committed in hold-off
is still offered while it stays committed. -/
theorem WireSound.shrink {s t : State} (w : WireSound s) (sched : Withdrawn s t)
    (duties : ∀ d y, t.duty d = some y → y.state = .sending → ∃ x, s.duty d = some x ∧ x.state = .sending)
    (markers : ∀ i, (t.tracker i).marker = .onWire → (s.tracker i).marker = .onWire)
    (queue : t.submission.queue = s.submission.queue)
    (replay : t.sched = s.sched → s.sched.state = .holdoff →
      ∀ d, s.sched.commitment.map (fun c => c.duty) = some (.replay d) →
        (s.duty d).map (fun x => x.state) = some .eligible → (t.duty d).map (fun x => x.state) = some .eligible)
    (request : t.sched = s.sched → s.sched.state = .holdoff →
      ∀ i, s.sched.commitment.map (fun c => c.duty) = some (.gapreq i) →
        (s.tracker i).marker = .pending → (t.tracker i).marker = .pending) : WireSound t := by
  rcases sched with same | ⟨holdoff, released⟩
  · constructor
    · intro d y there sends
      obtain ⟨x, before, sending⟩ := duties d y there sends
      rw [same]; exact w.replay d x before sending
    · intro i wire
      rw [same]; exact w.request i (markers i wire)
    · rw [same, queue]; exact w.data
    · rw [same]
      intro held d committed
      exact replay same held d committed (w.heldReplay held d committed)
    · rw [same]
      intro held i committed
      exact request same held i committed (w.heldRequest held i committed)
    · rw [same, queue]; exact w.heldData
    · rw [same]; exact w.heldBeacon
  · have idle : t.sched.state ≠ .holdoff := by rw [released]; nofun
    have apart : s.sched.state ≠ .sending := by rw [holdoff]; nofun
    constructor
    · intro d y there sends
      obtain ⟨x, before, sending⟩ := duties d y there sends
      exact absurd (w.replay d x before sending).1 apart
    · intro i wire
      exact absurd (w.request i (markers i wire)).1 apart
    · intro x mem sends
      rw [queue] at mem
      exact absurd (w.data x mem sends).1 apart
    all_goals exact fun held => absurd held idle

theorem WireSound.congr {s t : State} (w : WireSound s) (sched : t.sched = s.sched) (duties : t.duties = s.duties)
    (pool : t.pool = s.pool) (queue : t.submission.queue = s.submission.queue) : WireSound t := by
  have duty (d : Fin 16) : t.duty d = s.duty d := State.duty_congr (congrArg DutyPool.slots duties) d
  have tracker (i : Fin 8) : t.tracker i = s.tracker i := State.tracker_congr (congrArg TrackerPool.trackers pool) i
  refine w.shrink (.inl sched) (fun d y there sends => ⟨y, duty d ▸ there, sends⟩) (fun i wire => tracker i ▸ wire) queue ?_ ?_
  · intro _ _ d _ offered
    rw [duty]; exact offered
  · intro _ _ i _ offered
    rw [tracker]; exact offered

theorem WireSound.of_only {bs : List Block} {s t : State} (only : Only bs s t) (w : WireSound s)
    (other : ∀ b ∈ bs, b ∉ [Block.sched, .duties, .pool, .submission] := by decide) : WireSound t :=
  w.congr (only .sched fun k => other _ k (by decide)) (only .duties fun k => other _ k (by decide))
    (only .pool fun k => other _ k (by decide)) (congrArg Submission.queue (only .submission fun k => other _ k (by decide)))

/-- A withdrawn commitment is not kept. -/
theorem withdraw_committed {s : State} {d : DutyRef} (same : (s.withdraw d).sched = s.sched)
    (holdoff : s.sched.state = .holdoff) : s.sched.commitment.map (fun c => c.duty) ≠ some d := fun committed => by
  rw [withdraw_sched, if_pos ⟨holdoff, committed⟩] at same
  have := congrArg Scheduler.state same
  rw [holdoff] at this
  cases this

/-- A tracker whose request is not on the wire loses it, and a commitment to it (R131). -/
theorem WireSound.unrequest {s t : State} (w : WireSound s) {i : Fin 8} {x : Tracker} (off : x.marker = .none)
    (tracker : ∀ j, t.tracker j = if j = i then x else s.tracker j) (duties : t.duties = s.duties)
    (queue : t.submission.queue = s.submission.queue) (sched : t.sched = (s.withdraw (.gapreq i)).sched) : WireSound t := by
  have duty (d : Fin 16) : t.duty d = s.duty d := State.duty_congr (congrArg DutyPool.slots duties) d
  refine w.shrink (withdraw_withdrawn _ sched) (fun d y there sends => ⟨y, duty d ▸ there, sends⟩) (fun j wire => ?_) queue ?_ ?_
  · rw [tracker] at wire
    split at wire
    · rw [off] at wire; cases wire
    · exact wire
  · intro _ _ d _ offered
    rw [duty]; exact offered
  · intro same holdoff j committed offered
    rw [tracker]
    split
    · rename_i eq
      subst eq
      exact absurd committed (withdraw_committed (sched.symm.trans same) holdoff)
    · exact offered

/-- A tracker changes under its marker. -/
theorem WireSound.adjust {s t : State} (w : WireSound s) {i : Fin 8} {x : Tracker} (marker : x.marker = (s.tracker i).marker)
    (tracker : ∀ j, t.tracker j = if j = i then x else s.tracker j) (duties : t.duties = s.duties)
    (queue : t.submission.queue = s.submission.queue) (sched : t.sched = s.sched) : WireSound t := by
  have duty (d : Fin 16) : t.duty d = s.duty d := State.duty_congr (congrArg DutyPool.slots duties) d
  have markers (j : Fin 8) : (t.tracker j).marker = (s.tracker j).marker := by
    rw [tracker]
    split
    · rename_i eq; rw [eq, marker]
    · rfl
  refine w.shrink (.inl sched) (fun d y there sends => ⟨y, duty d ▸ there, sends⟩) (fun j wire => markers j ▸ wire) queue ?_ ?_
  · intro _ _ d _ offered
    rw [duty]; exact offered
  · intro _ _ j _ offered
    rw [markers]; exact offered

theorem emptyDuty_duty (s : State) (d e : Fin 16) : (s.emptyDuty d).duty e = if e = d then none else s.duty e := by
  rw [State.emptyDuty, duty_withdraw, State.duty_setEligible, State.duty_setDuty]

theorem emptyDuty_sched (s : State) (d : Fin 16) : (s.emptyDuty d).sched = (s.withdraw (.replay d)).sched := by
  rw [State.emptyDuty, withdraw_sched, withdraw_sched]
  rfl

theorem WireSound.emptyDuty {s : State} (w : WireSound s) (d : Fin 16) : WireSound (s.emptyDuty d) := by
  have pool : (s.emptyDuty d).pool = s.pool := emptyDuty_only s d .pool (by decide)
  have tracker (i : Fin 8) : (s.emptyDuty d).tracker i = s.tracker i := State.tracker_congr (congrArg _ pool) i
  refine w.shrink (withdraw_withdrawn (.replay d) (emptyDuty_sched s d)) (fun e y there sends => ?_)
    (fun i wire => tracker i ▸ wire) (congrArg Submission.queue (emptyDuty_only s d .submission (by decide))) ?_ ?_
  · rw [emptyDuty_duty] at there
    split at there
    · cases there
    · exact ⟨y, there, sends⟩
  · intro same holdoff e committed offered
    rw [emptyDuty_duty]
    split
    · rename_i eq
      subst eq
      exact absurd committed (withdraw_committed ((emptyDuty_sched s e).symm.trans same) holdoff)
    · exact offered
  · intro _ _ i _ offered
    rw [tracker]; exact offered

/-- A duty made is ELIGIBLE at once when its delay is 0, else in DELAY (R76, R80). -/
def madeDuty (k : Key) (delay : Nat) : Duty :=
  if delay = 0 then { key := k, state := .eligible, timer := none, count := 0 }
  else { key := k, state := .delay, timer := some delay, count := 0 }

theorem makeDuty_duty (s : State) (d : Fin 16) (k : Key) (delay : Nat) (e : Fin 16) :
    (s.makeDuty d k delay).duty e = if e = d then some (madeDuty k delay) else s.duty e := by
  unfold State.makeDuty madeDuty
  split
  · rw [State.duty_setEligible, State.duty_setDuty]
  · rw [State.duty_setDuty]

theorem madeDuty_not_sending (k : Key) (delay : Nat) : (madeDuty k delay).state ≠ .sending := by
  unfold madeDuty
  split <;> nofun

theorem WireSound.makeDuty {s : State} (w : WireSound s) {d : Fin 16} (free : s.duty d = none) (k : Key) (delay : Nat) :
    WireSound (s.makeDuty d k delay) := by
  have only := makeDuty_only s d k delay
  have tracker (i : Fin 8) : (s.makeDuty d k delay).tracker i = s.tracker i :=
    State.tracker_congr (congrArg _ (only .pool (by decide))) i
  refine w.shrink (.inl (only .sched (by decide))) (fun e y there sends => ?_) (fun i wire => tracker i ▸ wire)
    (congrArg Submission.queue (only .submission (by decide))) ?_ ?_
  · rw [makeDuty_duty] at there
    split at there
    · cases there
      exact absurd sends (madeDuty_not_sending _ _)
    · exact ⟨y, there, sends⟩
  · intro _ _ e _ offered
    rw [makeDuty_duty]
    split
    · rename_i eq
      simp [eq, free] at offered
    · exact offered
  · intro _ _ i _ offered
    rw [tracker]; exact offered

theorem WireSound.claim {s : State} (w : WireSound s) (core : TrackersCore s) {i : Fin 8}
    (free : (s.tracker i).state = .free) (o : Station) : WireSound (s.claim i o) := by
  obtain eq | ⟨first, count, -, eq⟩ := claim_eq s i o
  · rw [eq]; exact w
  · rw [eq]
    obtain ⟨-, -, -, marker⟩ := claimedTracker_consistent s o first count
    exact w.adjust (marker.trans ((core.consistent i).of_free free).2.symm) (claim_tracker s i o first count _) rfl rfl rfl

theorem WireSound.release {s : State} (w : WireSound s) (i : Fin 8) : WireSound (s.release i) :=
  w.unrequest (x := { s.tracker i with state := .free, timer := .stopped, marker := .none, lastOrigin := (s.tracker i).origin })
    rfl (release_tracker s i) (by simp [State.release, State.clearHeld, State.setCtx, State.dropRequest, State.setRequests, State.setTracker])
    (by simp [State.release, State.clearHeld, State.setCtx, State.dropRequest, State.setRequests, State.setTracker])
    (release_sched s i)

theorem Inner.wire {s t : State} (inner : Inner s t) (core : TrackersCore s) (w : WireSound s) : WireSound t := by
  induction inner with
  | refl => exact w
  | trans first _ one two => exact two (first.core core) (one core w)
  | elsewhere pool sched duties queue => exact w.congr sched duties pool queue
  | claim s i o free => exact w.claim core free o
  | release s i => exact w.release i
  | adjust s i x _ _ _ marker => exact w.adjust marker (State.tracker_setTracker s i · x) rfl rfl rfl
  | unrequest s i x _ _ _ _ marker =>
    exact w.unrequest marker (fun j => by rw [tracker_withdraw, tracker_dropRequest, State.tracker_setTracker])
      (by rw [withdraw_duties]; rfl) (by rw [withdraw_submission]; rfl) (by rw [withdraw_sched, withdraw_sched]; rfl)
  | emptyDuty s d => exact w.emptyDuty d
  | makeDuty s d k delay free => exact w.makeDuty free k delay

/-! ### Nothing on the wire -/

/-- No duty, no request and no message is on the wire. -/
structure WireClear (s : State) : Prop where
  replay : ∀ (d : Fin 16) (x : Duty), s.duty d = some x → x.state ≠ .sending
  request : ∀ i : Fin 8, (s.tracker i).marker ≠ .onWire
  data : ∀ x ∈ s.submission.queue, x.marker ≠ .sending

theorem WireSound.clear {s : State} (w : WireSound s) (quiet : s.sched.state ≠ .sending) : WireClear s :=
  ⟨fun d x there sends => quiet (w.replay d x there sends).1, fun i wire => quiet (w.request i wire).1,
    fun x mem sends => quiet (w.data x mem sends).1⟩

theorem WireClear.sound {s : State} (c : WireClear s) (free : s.sched.state ≠ .holdoff) : WireSound s :=
  ⟨fun d x there sends => absurd sends (c.replay d x there), fun i wire => absurd wire (c.request i),
    fun x mem sends => absurd sends (c.data x mem), fun h => absurd h free, fun h => absurd h free, fun h => absurd h free,
    fun h => absurd h free⟩

theorem WireClear.congr {s t : State} (c : WireClear s) (duties : t.duties = s.duties) (pool : t.pool = s.pool)
    (submission : t.submission = s.submission) : WireClear t := by
  obtain ⟨replay, request, data⟩ := c
  constructor
  · intro d
    rw [State.duty_congr (congrArg _ duties)]
    exact replay d
  · intro i
    rw [State.tracker_congr (congrArg _ pool)]
    exact request i
  · rw [submission]; exact data

theorem WireClear.of_only {bs : List Block} {s t : State} (only : Only bs s t) (c : WireClear s)
    (other : ∀ b ∈ bs, b ∉ [Block.duties, .pool, .submission] := by decide) : WireClear t :=
  c.congr (only .duties fun k => other _ k (by decide)) (only .pool fun k => other _ k (by decide))
    (only .submission fun k => other _ k (by decide))

/-! ### What a transmission ends with -/

/-- While the Scheduler is SENDING, nothing but its commitment is on the wire. -/
structure OnlyCommitted (s : State) (d : DutyRef) : Prop where
  replay : ∀ (e : Fin 16) (x : Duty), s.duty e = some x → x.state = .sending → d = .replay e
  request : ∀ i : Fin 8, (s.tracker i).marker = .onWire → d = .gapreq i
  data : ∀ x ∈ s.submission.queue, x.marker = .sending → d = .data
  headOnly : ∀ x ∈ s.submission.queue.tail, x.marker = .waiting

theorem WireSound.onlyCommitted {s : State} (w : WireSound s) (sub : SubmissionSound s) {c : Commitment}
    (committed : s.sched.commitment = some c) : OnlyCommitted s c.duty := by
  have same {d : DutyRef} (h : s.sched.commitment.map (fun c => c.duty) = some d) : c.duty = d := by
    rw [committed] at h
    exact Option.some.inj h
  exact ⟨fun d x there sends => same (w.replay d x there sends).2, fun i wire => same (w.request i wire).2,
    fun x mem sends => same (w.data x mem sends).2, sub.headOnly⟩

theorem OnlyCommitted.of_only {bs : List Block} {s t : State} (only : Only bs s t) {d : DutyRef} (c : OnlyCommitted s d)
    (other : ∀ b ∈ bs, b ∉ [Block.duties, .pool, .submission] := by decide) : OnlyCommitted t d := by
  obtain ⟨replay, request, data, head⟩ := c
  have submission : t.submission = s.submission := only .submission fun k => other _ k (by decide)
  constructor
  · intro e
    rw [State.duty_congr (congrArg _ (only .duties fun k => other _ k (by decide)))]
    exact replay e
  · intro i
    rw [State.tracker_congr (congrArg _ (only .pool fun k => other _ k (by decide)))]
    exact request i
  · rw [submission]; exact data
  · rw [submission]; exact head

/-- A duty leaving the pool, and the claim on its entry, put nothing on the wire. -/
theorem releaseDuty_wire (s : State) (d : Fin 16) (k : Key) :
    (∀ e, (s.releaseDuty d k).duty e = if e = d then none else s.duty e) ∧
      (s.releaseDuty d k).submission = s.submission := by
  refine ⟨fun e => ?_, releaseDuty_only s d k .submission (by decide)⟩
  rw [State.releaseDuty, State.duty_congr (congrArg _ (clearTx_only _ k .duties (by decide))), emptyDuty_duty]

/-- The reports of the store put no request on the wire. -/
theorem reportFrom_marker {s : State} (old : Nat) (h : ∀ i, (s.tracker i).marker ≠ .onWire) :
    ∀ i, ((s.reportFrom old).tracker i).marker ≠ .onWire := by
  have fold {f : State → Fin 8 → State} (step : ∀ (s : State) (j : Fin 8), (∀ i, (s.tracker i).marker ≠ .onWire) →
      ∀ i, ((f s j).tracker i).marker ≠ .onWire) (l : List (Fin 8)) (s : State)
      (h : ∀ i, (s.tracker i).marker ≠ .onWire) : ∀ i, ((l.foldl f s).tracker i).marker ≠ .onWire := by
    induction l generalizing s with
    | nil => exact h
    | cons j l ih => exact ih _ (step s j h)
  unfold State.reportFrom
  split
  · refine fold (fun s j h i => ?_) _ _ h
    unfold State.park
    dsimp only
    split
    · split
      · rw [tracker_withdraw, tracker_dropRequest, State.tracker_setTracker]
        split
        · nofun
        · exact h i
      · rw [State.tracker_setTracker]
        split
        · exact h j
        · exact h i
    · exact h i
  · split
    · refine fold (fun s j h i => ?_) _ _ h
      unfold State.resume
      dsimp only
      split
      · rw [State.tracker_setTracker]
        split
        · exact h j
        · exact h i
      · exact h i
    · exact h

theorem applyStore_marker {s : State} (st : Store) (h : ∀ i, (s.tracker i).marker ≠ .onWire) (i : Fin 8) :
    ((s.applyStore st).tracker i).marker ≠ .onWire := reportFrom_marker (s := s.withStore st) _ h i

theorem clearTx_marker {s : State} (h : ∀ i, (s.tracker i).marker ≠ .onWire) (k : Key) (i : Fin 8) :
    ((s.clearTx k).tracker i).marker ≠ .onWire := applyStore_marker _ h i

/-- The request that the transmission carried is off the wire, the others never were on it. -/
theorem WireClear.of_request {s t : State} {i : Fin 8} (c : OnlyCommitted s (.gapreq i)) {x : Tracker}
    (off : x.marker ≠ .onWire) (tracker : ∀ j, t.tracker j = if j = i then x else s.tracker j) (duties : t.duties = s.duties)
    (submission : t.submission = s.submission) : WireClear t := by
  constructor
  · intro d y there sends
    rw [State.duty_congr (congrArg _ duties)] at there
    cases c.replay d y there sends
  · intro j wire
    rw [tracker] at wire
    split at wire
    · exact off wire
    · rename_i other
      cases c.request j wire
      exact other rfl
  · intro y mem sends
    rw [submission] at mem
    cases c.data y mem sends

theorem OnlyCommitted.clear_request {s : State} {i : Fin 8} (c : OnlyCommitted s (.gapreq i))
    (off : (s.tracker i).marker ≠ .onWire) : WireClear s :=
  .of_request c off (fun j => by split <;> simp_all) rfl rfl

theorem OnlyCommitted.clear_beacon {s : State} (c : OnlyCommitted s .beacon) : WireClear s :=
  ⟨fun d x there sends => (nomatch c.replay d x there sends), fun i wire => (nomatch c.request i wire),
    fun x mem sends => (nomatch c.data x mem sends)⟩

theorem OnlyCommitted.replayEnded {s : State} {d : Fin 16} (c : OnlyCommitted s (.replay d)) : WireClear (s.replayEnded d) := by
  have others (e : Fin 16) (x : Duty) (other : e ≠ d) (there : s.duty e = some x) : x.state ≠ .sending := fun sends => by
    cases c.replay e x there sends
    exact other rfl
  have wire (i : Fin 8) : (s.tracker i).marker ≠ .onWire := fun h => nomatch c.request i h
  have queue (x) (mem : x ∈ s.submission.queue) : x.marker ≠ .sending := fun h => nomatch c.data x mem h
  unfold State.replayEnded
  split
  · rename_i free
    refine ⟨fun e x there => others e x (by rintro rfl; rw [free] at there; cases there) there, wire, queue⟩
  · rename_i x there
    split
    · obtain ⟨duty, submission⟩ := releaseDuty_wire s d x.key
      refine ⟨fun e y found => ?_, fun i => ?_, by rw [submission]; exact queue⟩
      · rw [duty] at found
        split at found
        · cases found
        · rename_i other; exact others e y other found
      · refine applyStore_marker _ (fun j => ?_) i
        rw [State.tracker_congr (congrArg _ (emptyDuty_only s d .pool (by decide)))]
        exact wire j
    · rename_i quiet
      refine ⟨fun e y found => ?_, wire, queue⟩
      by_cases other : e = d
      · subst other
        rw [there] at found
        cases found
        exact quiet
      · exact others e y other found

theorem OnlyCommitted.dataEnded {s : State} (c : OnlyCommitted s .data) : WireClear s.dataEnded := by
  have duty (e : Fin 16) (x : Duty) (there : s.duty e = some x) : x.state ≠ .sending := fun h => nomatch c.replay e x there h
  have wire (i : Fin 8) : (s.tracker i).marker ≠ .onWire := fun h => nomatch c.request i h
  have rests {h : DataDuty} {rest : List DataDuty} (queue : s.submission.queue = h :: rest) :
      ∀ x ∈ rest, x.marker ≠ .sending := by
    have waits := c.headOnly
    rw [queue] at waits
    intro x mem
    rw [waits x mem]
    nofun
  unfold State.dataEnded
  split
  · rename_i empty
    exact ⟨duty, wire, by rw [empty]; nofun⟩
  · rename_i h rest queue
    split
    · have wire' := clearTx_marker (s := s.withSubmission { s.submission with queue := rest, nextUntx := h.seq + 1 }) wire
        (s.ownKey h.seq)
      refine WireClear.of_only (tellOwnContext_only _ _) ⟨fun e x there => ?_, wire', ?_⟩
      · rw [State.duty_congr (congrArg _ (clearTx_only _ _ .duties (by decide)))] at there
        exact duty e x there
      · rw [clearTx_only _ _ .submission (by decide)]
        exact rests queue
    · rename_i quiet
      refine ⟨duty, wire, ?_⟩
      rw [queue]
      intro x mem
      rcases List.mem_cons.mp mem with rfl | mem
      · exact quiet
      · exact rests queue x mem

theorem requestSent_tracker (s : State) (i : Fin 8) : (s.tracker i).marker ≠ .onWire ∧ (s.requestSent i).pool = s.pool ∨
    ∃ x : Tracker, x.marker = .none ∧ ∀ j, (s.requestSent i).tracker j = if j = i then x else s.tracker j := by
  unfold State.requestSent
  dsimp only
  split
  · have tracker (x : Tracker) (j : Fin 8) : (((s.count .requestsSent).setTracker i x).dropRequest i).tracker j =
        if j = i then x else s.tracker j := by
      rw [tracker_dropRequest, State.tracker_setTracker]
      rfl
    exact .inr ⟨_, by split <;> rfl, tracker _⟩
  · rename_i off
    exact .inl ⟨off, rfl⟩

theorem OnlyCommitted.tellSent {s : State} {d : DutyRef} (c : OnlyCommitted s d) : WireClear (s.tellSent d) := by
  cases d with
  | replay d => exact OnlyCommitted.replayEnded (c.of_only (count_only _ _))
  | gapreq i =>
    have only := requestSent_only s i
    obtain ⟨off, same⟩ | ⟨x, none, tracker⟩ := requestSent_tracker s i
    · exact (c.clear_request off).congr (only .duties (by decide)) same (only .submission (by decide))
    · exact .of_request c (by rw [none]; nofun) tracker (only .duties (by decide)) (only .submission (by decide))
  | data => exact c.dataEnded
  | beacon => exact c.clear_beacon.of_only (withSched_only _ _)

theorem OnlyCommitted.tellAbandoned {s : State} {d : DutyRef} (c : OnlyCommitted s d) : WireClear (s.tellAbandoned d) := by
  cases d with
  | replay d => exact c.replayEnded
  | gapreq i =>
    simp only [State.tellAbandoned, State.requestAbandoned]
    split
    · refine .of_request c ?_ (fun j => by rw [tracker_dropRequest, State.tracker_setTracker]) rfl rfl
      split <;> nofun
    · rename_i off
      exact c.clear_request off
  | data => exact c.dataEnded
  | beacon => exact c.clear_beacon.of_only (withSched_only _ _)

theorem OnlyCommitted.tellCollision {s : State} {d : DutyRef} (c : OnlyCommitted s d) : WireClear (s.tellCollision d) := by
  cases d with
  | replay d =>
    have others (e : Fin 16) (x : Duty) (other : e ≠ d) (there : s.duty e = some x) : x.state ≠ .sending := fun sends => by
      cases c.replay e x there sends
      exact other rfl
    have wire (i : Fin 8) : (s.tracker i).marker ≠ .onWire := fun h => nomatch c.request i h
    have queue (x) (mem : x ∈ s.submission.queue) : x.marker ≠ .sending := fun h => nomatch c.data x mem h
    simp only [State.tellCollision, State.replayCollided]
    split
    · rename_i free
      exact ⟨fun e x there => others e x (by rintro rfl; rw [free] at there; cases there) there, wire, queue⟩
    · rename_i x there
      split
      · refine ⟨fun e y found => ?_, wire, queue⟩
        rw [State.duty_setDuty] at found
        split at found
        · cases found; nofun
        · rename_i other; exact others e y other found
      · rename_i quiet
        refine ⟨fun e y found => ?_, wire, queue⟩
        by_cases other : e = d
        · subst other
          rw [there] at found
          cases found
          exact quiet
        · exact others e y other found
  | gapreq i =>
    simp only [State.tellCollision, State.requestCollided]
    split
    · split
      · exact .of_request c (x := { s.tracker i with marker := .none }) nofun
          (fun j => by rw [tracker_dropRequest, State.tracker_setTracker]) rfl rfl
      · exact .of_request c (x := { s.tracker i with marker := .pending }) nofun
          (fun j => by rw [State.tracker_setRequests, State.tracker_setTracker]) rfl rfl
    · rename_i off
      exact c.clear_request off
  | data =>
    have duty (e : Fin 16) (x : Duty) (there : s.duty e = some x) : x.state ≠ .sending := fun h => nomatch c.replay e x there h
    have wire (i : Fin 8) : (s.tracker i).marker ≠ .onWire := fun h => nomatch c.request i h
    have waits := c.headOnly
    simp only [State.tellCollision, State.dataCollided]
    split
    · rename_i empty
      exact ⟨duty, wire, by rw [empty]; nofun⟩
    · rename_i h rest queue
      rw [queue] at waits
      have rests : ∀ x ∈ rest, x.marker ≠ .sending := fun x mem => by
        rw [waits x mem]
        nofun
      split
      · refine ⟨duty, wire, fun x mem => ?_⟩
        rcases List.mem_cons.mp mem with rfl | mem
        · nofun
        · exact rests x mem
      · rename_i quiet
        refine ⟨duty, wire, ?_⟩
        rw [queue]
        intro x mem
        rcases List.mem_cons.mp mem with rfl | mem
        · exact quiet
        · exact rests x mem
  | beacon =>
    simp only [State.tellCollision]
    split
    · exact c.clear_beacon.of_only (withSched_only _ _)
    · exact c.clear_beacon

/-! ### The Scheduler -/

/-- When ACTIVE is left nothing new is committed. -/
theorem leaveActive_sending (x : Scheduler) : x.leaveActive.state = .sending ↔ x.state = .sending := by
  unfold Scheduler.leaveActive
  dsimp only
  split
  · rename_i h; simp [h]
  · exact Iff.rfl

theorem WireSound.leaveActive {s : State} (w : WireSound s) : WireSound (s.withSched s.sched.leaveActive) := by
  have free := leaveActive_state s.sched
  have same (sending : s.sched.state = .sending) : s.sched.leaveActive.commitment = s.sched.commitment := by
    simp [Scheduler.leaveActive, sending]
  constructor
  · intro d x there sends
    obtain ⟨sending, committed⟩ := w.replay d x there sends
    exact ⟨(leaveActive_sending _).mpr sending, by rw [State.withSched_sched, same sending]; exact committed⟩
  · intro i wire
    obtain ⟨sending, committed⟩ := w.request i wire
    exact ⟨(leaveActive_sending _).mpr sending, by rw [State.withSched_sched, same sending]; exact committed⟩
  · intro x mem sends
    obtain ⟨sending, committed⟩ := w.data x mem sends
    exact ⟨(leaveActive_sending _).mpr sending, by rw [State.withSched_sched, same sending]; exact committed⟩
  all_goals exact fun h => absurd h free

theorem WireSound.quitActive {s : State} (w : WireSound s) (core : TrackersCore s) : WireSound s.quitActive :=
  (quitActive_inner s).wire (core.of_only (withSched_only _ _)) w.leaveActive

theorem WireSound.enterMuted {s : State} (w : WireSound s) (core : TrackersCore s) (why : MuteReason) :
    WireSound (s.enterMuted why) :=
  have only := (withStation_only s { s.station with state := .muted, muteReason := some why }).then (raise_only _ .muted)
  WireSound.quitActive (w.of_only only) (core.of_only only)

theorem WireSound.transmitterFree {s : State} (w : WireSound s) : WireSound s.transmitterFree :=
  w.of_only (transmitterFree_only s)

theorem takeFrame_wire {s u : State} {d : DutyRef} {f : Frame} (take : s.takeFrame d = some (f, u)) (clear : WireClear s)
    (headOnly : ∀ x ∈ s.submission.queue.tail, x.marker = .waiting) : OnlyCommitted u d := by
  have onlyOf (s : State) (clear : WireClear s) (headOnly : ∀ x ∈ s.submission.queue.tail, x.marker = .waiting) :
      OnlyCommitted s d :=
    ⟨fun e x there sends => absurd sends (clear.replay e x there), fun i wire => absurd wire (clear.request i),
      fun x mem sends => absurd sends (clear.data x mem), headOnly⟩
  cases d with
  | replay d =>
    obtain ⟨⟨k, v⟩, taken, eq⟩ := Option.map_eq_some_iff.mp take
    cases eq
    unfold State.takeReplay at taken
    split at taken
    · cases taken
    · split at taken <;> cases taken
      refine ⟨fun e y found sends => ?_, fun i wire => absurd wire (clear.request i),
        fun y mem sends => absurd sends (clear.data y mem), headOnly⟩
      rw [State.duty_setDuty] at found
      split at found
      · rename_i eq; rw [eq]
      · exact absurd sends (clear.replay e y found)
  | gapreq i =>
    obtain ⟨v, taken, eq⟩ := Option.map_eq_some_iff.mp take
    cases eq
    simp only [State.takeRequest] at taken
    split at taken <;> cases taken
    refine ⟨fun e y found sends => absurd sends (clear.replay e y found), fun j wire => ?_,
      fun y mem sends => absurd sends (clear.data y mem), headOnly⟩
    rw [State.tracker_setTracker] at wire
    split at wire
    · rename_i eq; rw [eq]
    · exact absurd wire (clear.request j)
  | data =>
    obtain ⟨⟨k, v⟩, taken, eq⟩ := Option.map_eq_some_iff.mp take
    cases eq
    unfold State.takeData at taken
    split at taken
    · cases taken
    · rename_i h rest queue
      split at taken <;> cases taken
      rw [queue] at headOnly
      refine ⟨fun e y found sends => absurd sends (clear.replay e y found), fun j wire => absurd wire (clear.request j),
        fun _ _ _ => rfl, headOnly⟩
  | beacon =>
    simp only [State.takeFrame] at take
    split at take <;> cases take
    exact onlyOf s clear headOnly

theorem WireSound.startCommitted {s : State} {c : Commitment} (clear : WireClear s)
    (headOnly : ∀ x ∈ s.submission.queue.tail, x.marker = .waiting) : WireSound (s.startCommitted c) := by
  unfold State.startCommitted
  split
  · exact (clear.of_only (releaseCommitment_only s)).sound nofun
  · rename_i r take
    obtain ⟨replay, request, data, -⟩ := takeFrame_wire (u := r.2) take clear headOnly
    refine ⟨fun d x there sends => ⟨rfl, ?_⟩, fun i wire => ⟨rfl, ?_⟩, fun x mem sends => ⟨rfl, ?_⟩, nofun, nofun, nofun, nofun⟩
    · exact congrArg some (replay d x there sends)
    · exact congrArg some (request i wire)
    · exact congrArg some (data x mem sends)

/-- A candidate is a duty that its owner offers (R125). -/
theorem candidate_offered {s : State} {c : Commitment} {k : FrameClass} (h : s.candidate k = some c) :
    match c.duty with
    | .replay d => (s.duty d).map (fun x => x.state) = some .eligible
    | .gapreq i => (s.tracker i).marker = .pending
    | .data => s.submission.queue.head?.map (fun h => h.marker) = some .waiting
    | .beacon => s.sched.beaconDuty = true := by
  cases k with
  | replay =>
    simp only [State.candidate, State.replayCandidate] at h
    split at h
    · cases h
    · split at h
      · rename_i there
        split at h
        · rename_i eligible
          cases h
          simp [there, eligible]
        · cases h
      · cases h
  | gapreq =>
    simp only [State.candidate, State.gapreqCandidate] at h
    split at h
    · cases h
    · split at h
      · rename_i pending
        cases h
        exact pending
      · cases h
  | data =>
    simp only [State.candidate, State.dataCandidate] at h
    split at h
    · cases h
    · rename_i queue
      split at h
      · rename_i waiting
        cases h
        simp [queue, waiting]
      · cases h
  | beacon =>
    simp only [State.candidate, State.beaconCandidate] at h
    split at h
    · rename_i pending
      cases h
      exact pending
    · cases h

theorem WireSound.commit {s : State} (w : WireSound s) (sub : SubmissionSound s) (idle : s.sched.state = .idle)
    {c : Commitment} (best : s.bestCandidate = some c) : WireSound (s.commit c) := by
  obtain ⟨k, -, candidate⟩ := List.exists_of_findSome?_eq_some best
  have offered := candidate_offered candidate
  have clear := w.clear (by rw [idle]; nofun)
  unfold State.commit
  dsimp only
  split
  · exact .startCommitted (clear.of_only (withSched_only _ _)) sub.headOnly
  · obtain ⟨replay, request, data⟩ := clear
    refine ⟨fun d x there sends => absurd sends (replay d x there), fun i wire => absurd wire (request i),
      fun x mem sends => absurd sends (data x mem), fun _ d committed => ?_, fun _ i committed => ?_, fun _ committed => ?_,
      fun _ committed => ?_⟩ <;>
    · have duty := Option.some.inj committed
      dsimp only at duty
      rw [duty] at offered
      exact offered

theorem WireSound.readBackCells {s : State} (w : WireSound s) (trackers : TrackersSound s) (sub : SubmissionSound s)
    (read : List (Option BurstCell)) : WireSound (s.readBackCells read) := by
  unfold State.readBackCells
  split
  · rename_i c _ _ committed _
    have carried := w.onlyCommitted sub committed
    split
    · have sent := (carried.of_only (withTrunk_only s { s.trunk with burst := false, rx := RxPath.at .waiting, tx := none })).tellSent
      refine WireSound.transmitterFree ?_
      exact (sent.of_only (withSched_only _ _)).sound nofun
    · have jam := carried.of_only (startJam_only s)
      have jamTrackers : TrackersSound s.startJam := trackers.of_only (startJam_only s)
      unfold State.collides
      split
      · exact (jam.tellCollision.of_only (withSched_only _ _)).sound nofun
      · have only := (noteAbandon_only (s.startJam.tellAbandoned c.duty)).then
          (withSched_only _ { (s.startJam.tellAbandoned c.duty).noteAbandon.sched with state := .jamming, commitment := none })
        have quiet : WireSound ((s.startJam.tellAbandoned c.duty).noteAbandon.toJamming) :=
          (jam.tellAbandoned.of_only only).sound nofun
        have told : TrackersSound ((s.startJam.tellAbandoned c.duty).noteAbandon.toJamming) :=
          (jamTrackers.tellAbandoned c.duty).of_only only
        unfold State.abandon State.muteRequest
        dsimp only
        split
        · split
          · exact quiet.enterMuted told.core _
          · exact quiet
        · exact quiet
    · exact w
  · exact w

/-! ### Every command -/

theorem WireSound.takeDecision {s : State} (w : WireSound s) (core : TrackersCore s) (d : Decision) :
    WireSound (s.takeDecision d) := by
  unfold State.takeDecision
  split
  · exact w
  · exact w.of_only (frameError_only s)
  · unfold State.goodFrame
    split
    · have raised := w.of_only (raise_only s .clash)
      unfold State.clash
      split
      · exact raised.of_only (startListenTimer_only _)
      · exact raised.enterMuted (core.of_only (raise_only _ _)) _
      · exact raised
      · exact w
      · exact w
      · exact w
    · exact (((Inner.of_only (count_only _ _)).trans (heard_inner _ _)).trans (distribute_inner _ _)).wire core w

theorem WireSound.acceptLeave {s : State} (w : WireSound s) (core : TrackersCore s) : WireSound s.acceptLeave := by
  unfold State.acceptLeave
  split
  · exact WireSound.quitActive (w.of_only (withStation_only _ _)) (core.of_only (withStation_only _ _))
  · exact WireSound.quitActive (w.of_only (enterReady_only _)) core.enterReady

theorem WireSound.execute {s : State} (w : WireSound s) (core : TrackersCore s) (c : Command) (args : List Word) :
    WireSound (s.execute c args).after := by
  have only := execute_only s c args
  cases c with
  | join =>
    simp only [State.execute, State.joinTrunk]
    split
    · refine w.congr (acceptJoin_only s .sched (by decide)) (acceptJoin_only s .duties (by decide))
        (acceptJoin_only s .pool (by decide)) ?_
      unfold State.acceptJoin
      dsimp only
      split <;> rfl
    · exact w
  | leave =>
    simp only [State.execute, State.leaveTrunk]
    split
    · exact w.acceptLeave core
    · exact w
  | discardHead =>
    simp only [State.execute, State.discard]
    split
    · exact w
    · exact (dropHead_inner s).wire core w
  | _ => exact w.of_only only

theorem makeEligible_duty (s : State) (d e : Fin 16) : (s.makeEligible d).duty e =
    if e = d then (s.duty d).map (fun x => { x with state := .eligible, timer := none }) else s.duty e := by
  unfold State.makeEligible
  split
  · rename_i free
    split
    · rename_i eq; rw [eq, free]; rfl
    · rfl
  · rename_i x there
    rw [State.duty_setEligible, State.duty_setDuty, there]
    rfl

theorem WireSound.makeEligible {s : State} (w : WireSound s) (d : Fin 16) : WireSound (s.makeEligible d) := by
  have only := makeEligible_only s d
  have tracker (i : Fin 8) : (s.makeEligible d).tracker i = s.tracker i :=
    State.tracker_congr (congrArg _ (only .pool (by decide))) i
  refine w.shrink (.inl (only .sched (by decide))) (fun e y there sends => ?_) (fun i wire => tracker i ▸ wire)
    (congrArg Submission.queue (only .submission (by decide))) ?_ ?_
  · rw [makeEligible_duty] at there
    split at there
    · obtain ⟨x, -, eq⟩ := Option.map_eq_some_iff.mp there
      rw [← eq] at sends
      cases sends
    · exact ⟨y, there, sends⟩
  · intro _ _ e _ offered
    rw [makeEligible_duty]
    split
    · rename_i eq
      subst eq
      obtain ⟨x, there, -⟩ := Option.map_eq_some_iff.mp offered
      rw [there]
      rfl
    · exact offered
  · intro _ _ i _ offered
    rw [tracker]; exact offered

/-- A message that joins the DATA duty queue waits at its end. -/
theorem WireSound.append {s : State} (w : WireSound s) {x : Submission} {y : DataDuty} (waits : y.marker = .waiting)
    (queue : x.queue = s.submission.queue ++ [y]) : WireSound (s.withSubmission x) where
  replay := w.replay
  request := w.request
  data z mem sends := by
    rw [State.withSubmission_submission, queue] at mem
    rcases List.mem_append.mp mem with mem | mem
    · exact w.data z mem sends
    · rw [List.mem_singleton.mp mem, waits] at sends
      cases sends
  heldReplay := w.heldReplay
  heldRequest := w.heldRequest
  heldData held committed := by
    have head := w.heldData held committed
    rw [State.withSubmission_submission, queue]
    cases h : s.submission.queue <;> simp_all
  heldBeacon := w.heldBeacon

theorem SubmissionSound.congr {s t : State} (h : SubmissionSound s) (submission : t.submission = s.submission)
    (reserved : t.store.reserved = s.store.reserved) (setup : t.station.state = .setup → s.station.state = .setup) :
    SubmissionSound t := by
  obtain ⟨consecutive, nextSeq, room, roomKept, headOnly, setupEmpty, cell⟩ := h
  constructor <;> simp only [submission, reserved]
  case setupEmpty => exact fun inside => setupEmpty (setup inside)
  all_goals assumption

theorem SubmissionSound.of_only {bs : List Block} {s t : State} (only : Only bs s t) (h : SubmissionSound s)
    (other : ∀ b ∈ bs, b ∉ [Block.store, .submission, .station] := by decide) : SubmissionSound t :=
  h.congr (only .submission fun k => other _ k (by decide)) (congrArg _ (only .store fun k => other _ k (by decide)))
    (by rw [only .station fun k => other _ k (by decide)]; exact id)

theorem wireSound_exec {c : Instr} {s t : State} (e : exec c s = .next t) (mode : ModeSound s) (trackers : TrackersSound s)
    (sub : SubmissionSound s) (w : WireSound s) : WireSound t := by
  by_cases host : isHostWord c = true
  · exact (hostWord_keeps (I := fun s => TrackersSound s ∧ WireSound s)
      (fun s t only h => ⟨h.1.of_only only, h.2.of_only only⟩)
      (fun s c args _ h => ⟨h.1.execute c args, h.2.execute h.1.core c args⟩) host e ⟨trackers, w⟩).2
  by_cases reset : isReset c = true
  · obtain rfl | ⟨⟨e, fresh⟩, -⟩ := exec_reset_cases reset e
    · exact w
    · exact fresh.wireSound
  have only := only_of_exec e
  have core := trackers.core
  cases c with
  | dataWord word wend =>
    simp only [exec, execDataWord] at e
    split at e
    · exact Host.Outcome.next.inj e ▸ w
    · split at e
      · rw [← Host.Outcome.next.inj e]
        obtain inner | ⟨u, n, seq, inner, eq⟩ := takeDataWord_inner s word wend
        · exact inner.wire core w
        · rw [eq]
          exact (inner.wire core w).append rfl rfl
      · exact Host.Outcome.next.inj e ▸ w.of_only (raise_only _ _)
  | deliveryTake =>
    simp only [exec, execDeliveryTake] at e
    split at e
    · exact Host.Outcome.next.inj e ▸ w.of_only (putOut_only _ _ _)
    · rw [← Host.Outcome.next.inj e, State.takeDelivery]
      split
      · exact w.of_only ((putOut_only _ _ _).then (raise_only _ _))
      · dsimp only
        split
        · exact (dropHead_inner _).wire (core.of_only (putOut_only _ _ _)) (w.of_only (putOut_only _ _ _))
        · exact w.of_only ((putOut_only _ _ _).then (withDelivery_only _ _))
  | deliveryTurn =>
    simp only [exec, execDeliveryTurn] at e
    split at e
    · split at e
      · exact Host.Outcome.next.inj e ▸ (serve_inner _ _).wire core w
      · exact Host.Outcome.next.inj e ▸ w
    · exact Host.Outcome.next.inj e ▸ w
  | lineActivity =>
    simp only [exec, execLineActivity] at e
    split at e
    · exact Host.Outcome.next.inj e ▸ w
    · rw [← Host.Outcome.next.inj e, State.defer]
      have watched := w.of_only (withTrunk_only s
        { s.trunk with lineIdle := false, burst := true, rx := s.trunk.rx.firstTransition })
      split
      · rename_i holdoff
        have clear := watched.clear (by rw [holdoff]; nofun)
        exact (clear.of_only (releaseCommitment_only _)).sound nofun
      · exact watched
  | selectionCommit =>
    simp only [exec, execSelectionCommit] at e
    split at e
    · rename_i point
      simp only [State.selectionPoint, Bool.and_eq_true, beq_iff_eq] at point
      obtain ⟨⟨-, idle⟩, -⟩ := point
      split at e
      · rename_i best
        exact Host.Outcome.next.inj e ▸ w.commit sub idle best
      · exact Host.Outcome.next.inj e ▸ w
    · exact Host.Outcome.next.inj e ▸ w
  | holdoffRunsOut =>
    simp only [exec, execHoldoffRunsOut] at e
    split at e
    · rename_i due
      obtain ⟨holdoff, -⟩ := due
      split at e
      · exact Host.Outcome.next.inj e ▸ .startCommitted (w.clear (by rw [holdoff]; nofun)) sub.headOnly
      · exact Host.Outcome.next.inj e ▸ w
    · exact Host.Outcome.next.inj e ▸ w
  | frameEnd read => exact Host.Outcome.next.inj e ▸ w.readBackCells trackers sub read
  | collision read => exact Host.Outcome.next.inj e ▸ w.readBackCells trackers sub read
  | jamEnd =>
    simp only [exec, execJamEnd] at e
    split at e
    · rename_i jamming
      rw [← Host.Outcome.next.inj e]
      have clear := (w.clear (by rw [jamming]; nofun)).of_only (withSched_only s { s.sched with state := .idle })
      exact (clear.sound nofun).transmitterFree
    · exact Host.Outcome.next.inj e ▸ w
  | frameError cells | clash cells | rxData cells | rxReplay cells | rxGapreq cells | rxBeacon cells =>
    rw [← Host.Outcome.next.inj e, State.burstEnds]
    split
    · exact w
    · split
      · exact w
      · exact w.of_only (burstOver_only _ _)
      · exact (w.of_only (burstOver_only _ _)).takeDecision (core.of_only (burstOver_only _ _)) _
  | requestDelayRunsOut i =>
    simp only [exec, execRequestDelayRunsOut] at e
    split at e
    · rw [← Host.Outcome.next.inj e]
      have tracker (j : Fin 8) := State.tracker_setTracker s i j { s.tracker i with timer := .stopped, marker := .pending }
      refine w.shrink (.inl rfl) (fun d y there sends => ⟨y, there, sends⟩) (fun j wire => ?_) rfl (fun _ _ _ _ => id) ?_
      · rw [State.tracker_setRequests, tracker] at wire
        split at wire
        · cases wire
        · exact wire
      · intro _ _ j _ offered
        rw [State.tracker_setRequests, tracker]
        split
        · rfl
        · exact offered
    · exact Host.Outcome.next.inj e ▸ w
    · exact Host.Outcome.next.inj e ▸ w
  | repairTimeoutRunsOut i =>
    simp only [exec, execRepairTimeoutRunsOut] at e
    split at e
    · split at e
      · rw [← Host.Outcome.next.inj e]
        refine w.adjust (i := i) ?_ (fun j => State.tracker_setTracker s i j _) rfl rfl rfl
        rfl
      · exact Host.Outcome.next.inj e ▸ (giveUpRun_inner _ _).wire core w
    · exact Host.Outcome.next.inj e ▸ w
    · exact Host.Outcome.next.inj e ▸ w
  | replayDelayRunsOut duties =>
    rw [← Host.Outcome.next.inj e]
    generalize bySerialOrder _ = l
    clear e only mode sub host reset trackers core
    induction l generalizing s with
    | nil => exact w
    | cons x l ih => exact ih (w.makeEligible x.1)
  | beaconTimerRunsOut =>
    simp only [exec, execBeaconTimerRunsOut] at e
    split at e
    · rw [← Host.Outcome.next.inj e]
      exact ⟨w.replay, w.request, w.data, w.heldReplay, w.heldRequest, w.heldData, fun _ _ => rfl⟩
    · exact Host.Outcome.next.inj e ▸ w
  | listenTimerRunsOut =>
    obtain eq | ⟨listening, -, eq⟩ := exec_listenTimer_cases e
    · rw [eq]; exact w
    · have free : ∀ i, (s.activated.tracker i).state = .free := trackers.activeOnly (by simp [listening])
      have active : s.activated.isActive = true := rfl
      have up : WireSound s.activated :=
        ⟨w.replay, w.request, w.data, w.heldReplay, w.heldRequest, w.heldData, fun _ _ => rfl⟩
      rw [eq]
      exact (offerAll_inner active free).wire (core.of_only (activated_only s)) up
  | _ => first
    | exact absurd rfl host
    | exact absurd rfl reset
    | exact w.of_only only (by simp [blocks])

/-- Settles O19: the wire invariant command by command; where a transmission ends, nothing is left on the wire. -/
theorem wireStaysSound : Obligations.WireStaysSound := fun _ _ e mode trackers sub w =>
  (step_keeps (P := fun s => ModeSound s ∧ TrackersSound s ∧ SubmissionSound s ∧ WireSound s) (I := WireSound)
    (fun s l h => ⟨h.1.of_only (withPending_only s l), h.2.1.of_only (withPending_only s l),
      h.2.2.1.of_only (withPending_only s l), h.2.2.2.of_only (withPending_only s l)⟩)
    (fun _ h => h.2.2.2) (fun _ _ _ e h => wireSound_exec e h.1 h.2.1 h.2.2.1 h.2.2.2) e ⟨mode, trackers, sub, w⟩)

end Sys2Proof.Machine
end

section
/-! What happens to the messages held, to the duties and queues that refer to them, and to the own context. `Heard s t`: what the frames
of others do to them; `Claims s t`: what the part's own units do. -/

open Sys2Proof

namespace Sys2Proof.Machine

set_option Elab.async false

/-! ### Contexts in state OWN -/

/-- The contexts in state OWN are the same ones and keep their places. -/
def OwnKept (s t : State) : Prop := ∀ o : Station,
  ((t.ctx o).state = .own ↔ (s.ctx o).state = .own) ∧ ((s.ctx o).state = .own → (t.ctx o).place = (s.ctx o).place)

theorem OwnKept.of_ctx {s t : State} (h : ∀ o, (t.ctx o).state = (s.ctx o).state ∧ (t.ctx o).place = (s.ctx o).place) :
    OwnKept s t := fun o => ⟨by rw [(h o).1], fun _ => (h o).2⟩

theorem OwnKept.refl (s : State) : OwnKept s s := .of_ctx fun _ => ⟨rfl, rfl⟩

theorem OwnKept.trans {s t u : State} (h : OwnKept s t) (k : OwnKept t u) : OwnKept s u := fun o =>
  have ⟨here, place⟩ := h o
  have ⟨there, place'⟩ := k o
  ⟨there.trans here, fun own => (place' (here.mpr own)).trans (place own)⟩

theorem OwnKept.of_contexts {s t : State} (h : t.contexts = s.contexts) : OwnKept s t :=
  .of_ctx fun o => by rw [State.ctx_congr h]; exact ⟨rfl, rfl⟩

theorem OwnKept.of_only {bs : List Block} {s t : State} (only : Only bs s t) (other : Block.contexts ∉ bs := by decide) :
    OwnKept s t := .of_contexts (only .contexts other)

theorem OwnKept.of_heldOnly {s t : State} (h : HeldOnly s t) : OwnKept s t :=
  .of_ctx fun o => by rw [h o]; exact ⟨rfl, rfl⟩

theorem OwnKept.setCtx {s : State} {o : Station} {c : Context}
    (state : c.state = .own ↔ (s.ctx o).state = .own) (place : (s.ctx o).state = .own → c.place = (s.ctx o).place) :
    OwnKept s (s.setCtx o c) := fun p => by
  rw [State.ctx_setCtx]
  split
  · rename_i eq; subst eq; exact ⟨state, place⟩
  · exact ⟨Iff.rfl, fun _ => rfl⟩

theorem OwnKept.setCtx_of_ne {s : State} {o : Station} {c : Context} (h : (s.ctx o).state ≠ .own) (k : c.state ≠ .own) :
    OwnKept s (s.setCtx o c) := .setCtx (iff_of_false k h) fun own => absurd own h

theorem Context.not_own_of_isSynced {c : Context} (h : c.isSynced = true) : c.state ≠ .own := fun own => by
  simp [Context.isSynced, own] at h

theorem OwnKept.decideState (s : State) (o : Station) : OwnKept s (s.decideState o) := by
  unfold State.decideState
  split
  · rename_i synced
    refine .setCtx_of_ne (Context.not_own_of_isSynced synced) ?_
    split <;> nofun
  · exact .refl s

theorem OwnKept.changeNotice (s : State) (o : Station) : OwnKept s (s.changeNotice o) := .of_heldOnly (changeNotice_heldOnly s o)

theorem OwnKept.settle (s : State) (o : Station) (was : ContextState) (must : Bool) : OwnKept s (s.settle o was must) := by
  unfold State.settle
  dsimp only
  split
  · exact (OwnKept.decideState _ _).trans (.changeNotice _ _)
  · exact .decideState _ _

theorem OwnKept.tellEviction (s : State) (o : Station) (k : Key) : OwnKept s (s.tellEviction o k) := by
  unfold State.tellEviction
  split
  · exact .settle _ _ _ _
  · exact .refl s

theorem OwnKept.endRestart (s : State) (o : Station) : OwnKept s (s.endRestart o) :=
  ((OwnKept.decideState _ _).trans (.of_heldOnly (restartNotice_heldOnly _ _))).trans (.changeNotice _ _)

theorem OwnKept.giveUpRun (s : State) (i : Fin 8) : OwnKept s (s.giveUpRun i) := by
  have giveUp (epoch : Epoch) (o : Station) (value : SeqNum) : OwnKept s (s.giveUp o epoch value) := by
    unfold State.giveUp
    dsimp only
    split
    · rename_i may
      have notOwn := Context.not_own_of_isSynced may.1
      exact (OwnKept.setCtx_of_ne notOwn (by exact notOwn)).trans (.settle _ _ _ _)
    · exact .refl s
  unfold State.giveUpRun
  dsimp only
  split
  · exact ((giveUp _ _ _).trans (.of_heldOnly (freeTracker_heldOnly _ _))).trans (.of_heldOnly (claimIfWaiting_heldOnly _ _))
  · exact (giveUp _ _ _).trans (.of_heldOnly (claimIfWaiting_heldOnly _ _))

theorem OwnKept.map {s t : State} {f : Context → Context} (map : t.contexts = s.contexts.map f)
    (h : ∀ c, (f c).state = c.state ∧ (f c).place = c.place) : OwnKept s t :=
  .of_ctx fun o => by
    have eq : t.ctx o = f (s.ctx o) := by simp [State.ctx, map]
    rw [eq]; exact h _

theorem OwnKept.enterReady (s : State) : OwnKept s s.enterReady :=
  .map (f := fun c => { c with silenceTimer := none }) rfl fun _ => ⟨rfl, rfl⟩

/-! ### What a change leaves -/

/-- Own number and setup record stand, SETUP is not entered, and but for the blocks `bs` the store, the Submission Unit, the records of the
Delivery Queue, the duties and the contexts in state OWN are as they were. -/
structure Keeps (bs : List Block) (s t : State) : Prop where
  stn : t.stn = s.stn
  setup : t.setup = s.setup
  inside : t.station.state = .setup → s.station.state = .setup
  store : .store ∉ bs → t.store = s.store
  submission : .submission ∉ bs → t.submission = s.submission
  queue : .delivery ∉ bs → t.delivery.queue = s.delivery.queue
  duties : .duties ∉ bs → t.duties = s.duties
  own : .contexts ∉ bs → OwnKept s t

theorem Keeps.of_only {bs cs : List Block} {s t : State} (only : Only cs s t) (own : OwnKept s t)
    (sub : ∀ c ∈ cs, c ∈ bs ∨ c ∉ [Block.station, .store, .submission, .delivery, .duties] := by decide)
    (station : .station ∉ cs := by decide) : Keeps bs s t :=
  have same (b : Block) (hb : b ∈ [Block.station, .store, .submission, .delivery, .duties]) (out : b ∉ bs) : b.same s t :=
    only b fun hc => (sub b hc).elim out fun h => h hb
  have still : t.station = s.station := only .station station
  { stn := congrArg StationControl.stn still
    setup := congrArg StationControl.setup still
    inside := by rw [still]; exact id
    store := same .store (by decide)
    submission := same .submission (by decide)
    queue := fun out => congrArg Delivery.queue (same .delivery (by decide) out)
    duties := same .duties (by decide)
    own := fun _ => own }

theorem Keeps.of_only_plain {bs cs : List Block} {s t : State} (only : Only cs s t)
    (sub : ∀ c ∈ cs, c ∈ bs ∨ c ∉ [Block.station, .store, .submission, .delivery, .duties] := by decide)
    (plain : ∀ c ∈ cs, c ∉ [Block.station, .contexts] := by decide) : Keeps bs s t :=
  .of_only only (.of_only only fun h => plain _ h (by decide)) sub fun h => plain _ h (by decide)

theorem Keeps.mono {bs cs : List Block} {s t : State} (h : Keeps bs s t) (sub : ∀ b ∈ bs, b ∈ cs := by decide) : Keeps cs s t :=
  ⟨h.stn, h.setup, h.inside, fun k => h.store fun x => k (sub _ x), fun k => h.submission fun x => k (sub _ x),
    fun k => h.queue fun x => k (sub _ x), fun k => h.duties fun x => k (sub _ x), fun k => h.own fun x => k (sub _ x)⟩

/-! ### The frames of others -/

/-- What the Origin Context Table does to the messages held when it takes a frame of another station: it stores entries of others,
evicting unpinned ones (R8 to R11), and takes DUE from those of an epoch that is over (R17). -/
inductive Heard : State → State → Prop
  | refl (s : State) : Heard s s
  | trans {s t u : State} : Heard s t → Heard t u → Heard s u
  | other {s t : State} (keeps : Keeps [] s t) (still : t.station = s.station) : Heard s t
  | insert {s t : State} (e : Entry) (peer : e.key.origin ≠ s.stn) (pins : e.pins.handed = false ∧ e.pins.tx = false)
      (size : 1 ≤ e.payload.length ∧ e.payload.length ≤ Config.maxPayload)
      (keeps : Keeps [.store] s t) (still : t.station = s.station)
      (store : t.store = (s.store.insert s.stn s.setup.ownShare e).2) : Heard s t
  | withhold {s t : State} (o : Station) (epoch : Epoch) (peer : o ≠ s.stn) (keeps : Keeps [.store] s t)
      (still : t.station = s.station) (store : t.store = s.store.restartRelease o epoch) : Heard s t

namespace Heard

theorem of_only {bs : List Block} {s t : State} (only : Only bs s t) (own : OwnKept s t)
    (sub : ∀ b ∈ bs, b ∉ [Block.station, .store, .submission, .delivery, .duties] := by decide) : Heard s t :=
  .other (.of_only only own (fun c hc => .inr (sub c hc)) fun h => sub _ h (by decide))
    (only .station fun h => sub _ h (by decide))

theorem of_plain {bs : List Block} {s t : State} (only : Only bs s t)
    (sub : ∀ b ∈ bs, b ∉ [Block.station, .store, .submission, .delivery, .duties, .contexts] := by decide) : Heard s t :=
  .of_only only (.of_only only fun h => sub _ h (by decide)) fun b hb hm => sub b hb (by simp_all)

theorem station {s t : State} (h : Heard s t) : t.station = s.station := by
  induction h with
  | refl => rfl
  | trans _ _ one two => exact two.trans one
  | other _ still => exact still
  | insert _ _ _ _ _ still => exact still
  | withhold _ _ _ _ still => exact still

theorem stn {s t : State} (h : Heard s t) : t.stn = s.stn := congrArg StationControl.stn h.station

theorem own {s t : State} (h : Heard s t) : OwnKept s t := by
  induction h with
  | refl => exact .refl _
  | trans _ _ one two => exact one.trans two
  | other keeps => exact keeps.own (by decide)
  | insert _ _ _ _ keeps => exact keeps.own (by decide)
  | withhold _ _ _ keeps => exact keeps.own (by decide)

theorem settle (s : State) (o : Station) (was : ContextState) (must : Bool) : Heard s (s.settle o was must) :=
  .of_only (settle_only s o was must) (.settle s o was must)

theorem setCtx {s : State} {o : Station} (c : Context) (h : (s.ctx o).state ≠ .own) (k : c.state ≠ .own) :
    Heard s (s.setCtx o c) := .of_only (setCtx_only s o c) (.setCtx_of_ne h k)

theorem insertFrame {s : State} (o : Station) {e : Entry} (peer : e.key.origin ≠ s.stn)
    (pins : e.pins.handed = false ∧ e.pins.tx = false)
    (size : 1 ≤ e.payload.length ∧ e.payload.length ≤ Config.maxPayload) :
    Heard s (s.insertFrame o e).after := by
  have stored : Heard s (s.withStore (s.store.insert s.stn s.setup.ownShare e).2) :=
    .insert e peer pins size (.of_only_plain (withStore_only _ _)) rfl rfl
  unfold State.insertFrame
  dsimp only
  split
  · exact .refl s
  · exact .refl s
  · exact stored.trans (.of_plain (reportFrom_only _ _))
  · exact (stored.trans (.of_only (tellEviction_only _ _ _) (.tellEviction _ _ _))).trans (.of_plain (reportFrom_only _ _))

theorem afterDueInsert (s : State) (a : InsertAnswer) : Heard s (s.afterDueInsert a) := .of_plain (afterDueInsert_only s a)

theorem countRestart_state (c : Context) : c.countRestart.state = c.state := by
  unfold Context.countRestart
  split <;> rfl

theorem beginRestart {s : State} {o : Station} (peer : o ≠ s.stn) (notOwn : (s.ctx o).state ≠ .own) (epoch : Epoch)
    (nextDue horizon floor : SeqNum) : Heard s (s.beginRestart o epoch nextDue horizon floor) := by
  have counts : (s.ctx o).countRestart.state ≠ .own := by rw [countRestart_state]; exact notOwn
  have released (u : State) (hu : u.stn = s.stn) (e : Epoch) : Heard u (u.applyStore (u.store.restartRelease o e)) :=
    .withhold o e (by rw [hu]; exact peer) (.of_only_plain (applyStore_only _ _)) (applyStore_only _ _ .station (by decide))
      (applyStore_store _ _)
  have still : ((((s.setCtx o (s.ctx o).countRestart).applyStore (s.store.restartRelease o (s.ctx o).epoch)).ctx o).state) ≠
      .own := by
    rw [State.ctx_congr (applyStore_only _ _ .contexts (by decide)), State.ctx_setCtx_same]
    exact counts
  exact ((Heard.setCtx _ notOwn counts).trans (released (s.setCtx o (s.ctx o).countRestart) rfl _)).trans
    (.setCtx _ still (by exact still))

theorem endRestart (s : State) (o : Station) : Heard s (s.endRestart o) := .of_only (endRestart_only s o) (.endRestart s o)

end Heard

/-- A message of another station, with a payload that a frame may carry. -/
structure Message.FromPeer (m : Message) (s : State) : Prop where
  peer : m.key.origin ≠ s.stn
  size : 1 ≤ m.payload.length ∧ m.payload.length ≤ Config.maxPayload

theorem Message.FromPeer.heard {m : Message} {s t : State} (h : m.FromPeer s) (heard : Heard s t) : m.FromPeer t :=
  ⟨by rw [heard.stn]; exact h.peer, h.size⟩

theorem Message.FromPeer.insertDue {m : Message} {s : State} (h : m.FromPeer s) (o : Station) :
    Heard s ((s.insertFrame o (m.entry Pins.onlyDue)).after.afterDueInsert (s.insertFrame o (m.entry Pins.onlyDue)).answer) :=
  (Heard.insertFrame o h.peer ⟨rfl, rfl⟩ h.size).trans (.afterDueInsert _ _)

theorem Message.FromPeer.insertPlain {m : Message} {s : State} (h : m.FromPeer s) (o : Station) :
    Heard s (s.insertFrame o (m.entry Pins.none)).after := Heard.insertFrame o h.peer ⟨rfl, rfl⟩ h.size

theorem windowFrame_heard {s : State} {m : Message} (h : m.FromPeer s) (notOwn : (s.ctx m.key.origin).state ≠ .own) :
    Heard s (s.windowFrame m) := by
  have inserted := h.insertDue m.key.origin
  unfold State.windowFrame
  dsimp only
  split
  · exact .refl s
  · generalize (s.insertFrame m.key.origin (m.entry Pins.onlyDue)).after.afterDueInsert
      (s.insertFrame m.key.origin (m.entry Pins.onlyDue)).answer = u at inserted ⊢
    have still := mt (inserted.own m.key.origin).1.mp notOwn
    exact (inserted.trans (.setCtx _ still (by exact still))).trans (.settle _ _ _ _)

theorem classify_heard {s : State} {m : Message} (h : m.FromPeer s) : Heard s (s.classify m) := by
  unfold State.classify
  dsimp only
  split
  · exact .refl s
  · rename_i unsynced
    have set := Heard.setCtx { s.ctx m.key.origin with state := .steady, epoch := m.key.epoch, nextDue := m.key.seq, horizon := m.key.seq, lossFloor := m.key.seq }
      (show (s.ctx m.key.origin).state ≠ .own by rw [unsynced]; nofun) nofun
    exact (set.trans ((h.heard set).insertDue _)).trans (.settle _ _ _ _)
  · rename_i notOwn _
    split
    · have rest {u : State} (begun : Heard s u) : Heard s
          (((u.insertFrame m.key.origin (m.entry Pins.onlyDue)).after.afterDueInsert
            (u.insertFrame m.key.origin (m.entry Pins.onlyDue)).answer).endRestart m.key.origin) :=
        (begun.trans ((h.heard begun).insertDue _)).trans (.endRestart _ _)
      unfold State.restartFrame
      dsimp only
      split
      · exact rest (.beginRestart h.peer notOwn _ _ _ _)
      · exact rest (.beginRestart h.peer notOwn _ _ _ _)
    · split
      · exact .of_plain (count_only _ _)
      · split
        · unfold State.behindFrame
          dsimp only
          split
          · exact (h.insertPlain _).trans (.settle _ _ _ _)
          · exact h.insertPlain _
        · split
          · exact windowFrame_heard h notOwn
          · unfold State.farFrame
            dsimp only
            split
            · exact .refl s
            · have set := Heard.setCtx { s.ctx m.key.origin with lossFloor := m.key.seq - 63, horizon := m.key.seq }
                notOwn (by exact notOwn)
              exact (set.trans ((h.heard set).insertDue _)).trans (.settle _ _ _ _)

theorem takeBeacon_heard {s : State} {o : Station} (peer : o ≠ s.stn) (epoch : Epoch) (nextSeq : SeqNum) :
    Heard s (s.takeBeacon o epoch nextSeq) := by
  unfold State.takeBeacon
  dsimp only
  split
  · exact .refl s
  · rename_i unsynced
    exact .setCtx _ (by rw [unsynced]; nofun) nofun
  · rename_i notOwn _
    split
    · unfold State.restartBeacon
      dsimp only
      split
      · exact (Heard.beginRestart peer notOwn _ _ _ _).trans (.endRestart _ _)
      · exact (Heard.beginRestart peer notOwn _ _ _ _).trans (.endRestart _ _)
    · split
      · unfold State.raiseByBeacon
        dsimp only
        split
        · exact (Heard.setCtx _ notOwn (by exact notOwn)).trans (.settle _ _ _ _)
        · exact .refl s
      · exact .refl s

theorem heard_heard (s : State) (n : Station) : Heard s (s.heard n) :=
  .of_only (heard_only s n) (.setCtx Iff.rfl fun _ => rfl)

end Sys2Proof.Machine
end

section
/-! What the part's own units do to the messages held, to the duties and queues that refer to them, and to the own context. -/

open Sys2Proof

namespace Sys2Proof.Machine

set_option Elab.async false

/-- The store when record `r` has left the Delivery Queue: a MESSAGE takes HANDED from its entry (R101). -/
def Store.afterDrop (st : Store) : Record → Store
  | .message k => (st.clearHanded k).2
  | .lost _ _ _ _ => st
  | .restart _ _ _ _ => st

/-- What the part's own claims do to the messages held, to the duties and queues that refer to them, and to the own context. -/
inductive Claims : State → State → Prop
  | refl (s : State) : Claims s s
  | trans {s t u : State} : Claims s t → Claims t u → Claims s u
  | other {s t : State} (keeps : Keeps [] s t) (still : t.station.state ≠ .active → s.station.state ≠ .active) : Claims s t
  /-- ACTIVE is left, and every duty with it (R89) -/
  | quit {s t u : State} (keeps : Keeps [] s t) (claims : Claims t u) (none : ∀ d, u.duty d = none) : Claims s u
  /-- a duty is made for a key held without TX (R76) -/
  | makeDuty {s t : State} (d : Fin 16) (k : Key) (delay : Nat) (active : s.isActive = true) (free : s.duty d = none)
      (pinned : (s.store.pinTx k).1 = .pinned) (keeps : Keeps [.store, .duties] s t) (still : t.station = s.station)
      (store : t.store = (s.store.pinTx k).2) (duty : ∀ e, t.duty e = if e = d then some (madeDuty k delay) else s.duty e)
      (eligible : t.duties.eligible = if delay = 0 then s.duties.eligible ++ [d] else s.duties.eligible) : Claims s t
  /-- a duty ends, and its claim on its entry (R84 to R89) -/
  | endDuty {s t : State} (d : Fin 16) (x : Duty) (there : s.duty d = some x) (keeps : Keeps [.store, .duties] s t)
      (still : t.station = s.station) (store : t.store = (s.store.clearTx x.key).2)
      (duty : ∀ e, t.duty e = if e = d then none else s.duty e)
      (eligible : t.duties.eligible = s.duties.eligible.filter fun e => e != d) : Claims s t
  /-- a duty goes between ELIGIBLE and SENDING (R82, R83) -/
  | turnDuty {s t : State} (d : Fin 16) (x y : Duty) (there : s.duty d = some x) (before : x.state ≠ .delay)
      (now : y.state ≠ .delay) (key : y.key = x.key) (timer : y.timer = x.timer) (keeps : Keeps [.duties] s t)
      (still : t.station = s.station) (duty : ∀ e, t.duty e = if e = d then some y else s.duty e)
      (eligible : t.duties.eligible = s.duties.eligible) : Claims s t
  /-- a duty whose delay has run out becomes ELIGIBLE (R80) -/
  | ripen {s t : State} (d : Fin 16) (x : Duty) (there : s.duty d = some x) (delays : x.state = .delay)
      (keeps : Keeps [.duties] s t) (still : t.station = s.station)
      (duty : ∀ e, t.duty e = if e = d then some { x with state := .eligible, timer := Option.none } else s.duty e)
      (eligible : t.duties.eligible = s.duties.eligible ++ [d]) : Claims s t
  /-- the head record leaves the Delivery Queue (R101, R105) -/
  | dropRecord {s t : State} (r : Record) (rest : List Record) (head : s.delivery.queue = r :: rest)
      (keeps : Keeps [.store, .delivery] s t) (still : t.station = s.station) (queue : t.delivery.queue = rest)
      (store : t.store = s.store.afterDrop r) : Claims s t
  /-- the head of the DATA duty queue is taken or comes back (R119) -/
  | turnHead {s t : State} (x y : DataDuty) (rest : List DataDuty) (queue : s.submission.queue = x :: rest) (seq : y.seq = x.seq)
      (keeps : Keeps [.submission] s t) (still : t.station = s.station)
      (submission : t.submission = { s.submission with queue := y :: rest }) : Claims s t
  /-- the head's first transmission ends (R120, R48) -/
  | endHead {s t : State} (x : DataDuty) (rest : List DataDuty) (queue : s.submission.queue = x :: rest)
      (keeps : Keeps [.store, .submission, .contexts] s t) (still : t.station = s.station)
      (store : t.store = (s.store.clearTx (s.ownKey x.seq)).2)
      (submission : t.submission = { s.submission with queue := rest, nextUntx := x.seq + 1 })
      (ctx : ∀ o, t.ctx o = if s.setup.loopback = true ∧ o = s.stn then { s.ctx o with horizon := x.seq } else s.ctx o) :
      Claims s t

theorem makeDuty_eligible (s : State) (d : Fin 16) (k : Key) (delay : Nat) : (s.makeDuty d k delay).duties.eligible =
    if delay = 0 then s.duties.eligible ++ [d] else s.duties.eligible := by
  unfold State.makeDuty
  split <;> rfl

theorem dropDuty_duty (s : State) (d e : Fin 16) : (s.dropDuty d).duty e = if e = d then none else s.duty e := by
  unfold State.dropDuty
  split
  · rename_i free
    split
    · rename_i eq; rw [eq, free]
    · rfl
  · exact (releaseDuty_wire s d _).1 e

theorem dropDuties_duty (s : State) (e : Fin 16) : s.dropDuties.duty e = none := by
  have fold (l : List (Fin 16)) (s : State) : (l.foldl State.dropDuty s).duty e = if e ∈ l then none else s.duty e := by
    induction l generalizing s with
    | nil => rfl
    | cons d l ih =>
      rw [List.foldl_cons, ih, dropDuty_duty]
      by_cases h : e = d <;> simp [h]
  rw [State.dropDuties, fold, if_pos (show e ∈ allDuties from List.mem_finRange e)]

/-- After ACTIVE is left no duty is in use (R89). -/
theorem quitActive_duty (s : State) (d : Fin 16) : s.quitActive.duty d = none := by
  rw [State.quitActive, State.duty_congr (congrArg _ (freeAllTrackers_only _ .duties (by decide))), dropDuties_duty]

/-- A change of station state that enters no SETUP. -/
theorem keeps_station {s t : State} {bs : List Block} (only : Only bs s t) (own : OwnKept s t) (stn : t.stn = s.stn)
    (setup : t.setup = s.setup) (inside : t.station.state = .setup → s.station.state = .setup)
    (sub : ∀ b ∈ bs, b ∉ [Block.store, .submission, .delivery, .duties] := by decide) : Keeps [] s t :=
  ⟨stn, setup, inside, fun _ => only .store fun h => sub _ h (by decide), fun _ => only .submission fun h => sub _ h (by decide),
    fun _ => congrArg Delivery.queue (only .delivery fun h => sub _ h (by decide)),
    fun _ => only .duties fun h => sub _ h (by decide), fun _ => own⟩

namespace Claims

theorem of_only {bs : List Block} {s t : State} (only : Only bs s t) (own : OwnKept s t)
    (sub : ∀ b ∈ bs, b ∉ [Block.station, .store, .submission, .delivery, .duties] := by decide) : Claims s t :=
  .other (.of_only only own (fun c hc => .inr (sub c hc)) fun h => sub _ h (by decide))
    (by rw [only .station fun h => sub _ h (by decide)]; exact id)

theorem of_plain {bs : List Block} {s t : State} (only : Only bs s t)
    (sub : ∀ b ∈ bs, b ∉ [Block.station, .store, .submission, .delivery, .duties, .contexts] := by decide) : Claims s t :=
  .of_only only (.of_only only fun h => sub _ h (by decide)) fun b hb hm => sub b hb (by simp_all)

theorem foldl {α : Type} {f : State → α → State} (h : ∀ s a, Claims s (f s a)) (l : List α) (s : State) :
    Claims s (l.foldl f s) := by
  induction l generalizing s with
  | nil => exact .refl s
  | cons a l ih => exact (h s a).trans (ih (f s a))

/-! ### Duties -/

theorem releaseDuty {s : State} {d : Fin 16} {x : Duty} (there : s.duty d = some x) : Claims s (s.releaseDuty d x.key) := by
  have only := releaseDuty_only s d x.key
  have emptied : (s.emptyDuty d).store = s.store := emptyDuty_only s d .store (by decide)
  refine .endDuty d x there (.of_only_plain only) (only .station (by decide)) ?_ (releaseDuty_wire s d x.key).1 ?_
  · rw [State.releaseDuty, State.clearTx, applyStore_store, emptied]
  · rw [State.releaseDuty, clearTx_only _ _ .duties (by decide), State.emptyDuty, withdraw_duties]
    rfl

theorem cancelKey (s : State) (k : Key) : Claims s (s.cancelKey k) := by
  refine .foldl (fun s d => ?_) _ _
  unfold State.cancelDuty
  split
  · exact .refl s
  · rename_i x there
    split
    · rename_i same
      exact same.1 ▸ .releaseDuty there
    · exact .refl s

theorem dropDuties (s : State) : Claims s s.dropDuties := by
  refine .foldl (fun s d => ?_) _ _
  unfold State.dropDuty
  split
  · exact .refl s
  · rename_i there
    exact .releaseDuty there

theorem replayEnded (s : State) (d : Fin 16) : Claims s (s.replayEnded d) := by
  unfold State.replayEnded
  split
  · exact .refl s
  · rename_i x there
    split
    · exact .releaseDuty there
    · exact .refl s

theorem examineKey {s : State} (active : s.isActive = true) (requester : Station) (k : Key) :
    Claims s (s.examineKey requester k) := by
  unfold State.examineKey
  split
  · rename_i d lowest
    dsimp only
    split
    · rename_i pinned
      have only := (applyStore_only s (s.store.pinTx k).2).then (makeDuty_only _ d k (s.replayDelay k requester))
      have duties : (s.applyStore (s.store.pinTx k).2).duties = s.duties := applyStore_only _ _ .duties (by decide)
      refine .makeDuty d k (s.replayDelay k requester) active (lowestDuty_spec lowest) pinned (.of_only_plain only)
        (only .station (by decide)) ?_ (fun e => ?_) ?_
      · rw [makeDuty_only _ _ _ _ .store (by decide), applyStore_store]
      · rw [makeDuty_duty, State.duty_congr (congrArg _ duties)]
      · rw [makeDuty_eligible, duties]
    · exact .refl s
    · exact .refl s
  · split
    · exact .of_plain (count_only _ _)
    · exact .refl s

theorem answerGapreq (s : State) (requester origin : Station) (epoch : Epoch) (first : SeqNum) (count : Nat) :
    Claims s (s.answerGapreq requester origin epoch first count) := by
  unfold State.answerGapreq
  split
  · rename_i active
    generalize askedKeys origin epoch first count = l
    induction l generalizing s with
    | nil => exact .refl s
    | cons k l ih =>
      refine (examineKey active requester k).trans (ih _ ?_)
      rw [State.isActive, examineKey_only requester s k .station (by decide)]
      exact active
  · exact .refl s

theorem setDuty {s : State} {d : Fin 16} {x : Duty} (there : s.duty d = some x) (before : x.state ≠ .delay) (y : Duty)
    (now : y.state ≠ .delay) (key : y.key = x.key) (timer : y.timer = x.timer) : Claims s (s.setDuty d (some y)) :=
  .turnDuty d x y there before now key timer (.of_only_plain (setDuty_only _ _ _)) rfl (State.duty_setDuty s d · (some y)) rfl

/-! ### Records and messages -/

theorem dropHead (s : State) : Claims s s.dropHead := by
  have only := dropHead_only s
  unfold State.dropHead at only ⊢
  split
  · exact .refl s
  · rename_i r rest head
    rw [head] at only
    refine .dropRecord r rest head (.of_only_plain only) (only .station (by decide)) ?_ ?_
    · cases r with
      | message k => exact congrArg Delivery.queue (clearHanded_only _ k .delivery (by decide))
      | lost => rfl
      | restart => rfl
    · cases r with
      | message k => exact applyStore_store _ _
      | lost => rfl
      | restart => rfl

theorem tellOwnContext_ctx (s : State) (n : SeqNum) (o : Station) : (s.tellOwnContext n).ctx o =
    if s.setup.loopback = true ∧ o = s.stn then { s.ctx o with horizon := n } else s.ctx o := by
  unfold State.tellOwnContext
  split
  · rename_i on
    rw [State.ctx_setCtx]
    simp only [on, true_and]
    split
    · rename_i eq; rw [eq]
    · rfl
  · rename_i off
    rw [if_neg fun h => off h.1]

theorem endHeadWith {s : State} {x : DataDuty} {rest : List DataDuty} (queue : s.submission.queue = x :: rest) :
    Claims s (((s.withSubmission { s.submission with queue := rest, nextUntx := x.seq + 1 }).clearTx
      (s.ownKey x.seq)).tellOwnContext x.seq) := by
  have taken := withSubmission_only s { s.submission with queue := rest, nextUntx := x.seq + 1 }
  have cleared := clearTx_only (s.withSubmission { s.submission with queue := rest, nextUntx := x.seq + 1 }) (s.ownKey x.seq)
  have before := taken.then cleared
  have store : ((s.withSubmission { s.submission with queue := rest, nextUntx := x.seq + 1 }).clearTx (s.ownKey x.seq)).store =
      (s.store.clearTx (s.ownKey x.seq)).2 := applyStore_store _ _
  have submission := cleared .submission (by decide)
  generalize (s.withSubmission { s.submission with queue := rest, nextUntx := x.seq + 1 }).clearTx (s.ownKey x.seq) = v at *
  have told := tellOwnContext_only v x.seq
  have only := before.then told
  have station := only .station (by decide)
  have still : v.station = s.station := before .station (by decide)
  refine .endHead x rest queue ⟨congrArg StationControl.stn station, congrArg StationControl.setup station,
    by rw [station]; exact id, fun h => absurd (by decide) h, fun h => absurd (by decide) h,
    fun _ => congrArg Delivery.queue (only .delivery (by decide)), fun _ => only .duties (by decide),
    fun h => absurd (by decide) h⟩ station ?_ ?_ fun o => ?_
  · rw [told .store (by decide), store]
  · rw [told .submission (by decide), submission]
    rfl
  · rw [tellOwnContext_ctx, State.stn, State.setup, still, State.ctx_congr (before .contexts (by decide))]
    rfl

theorem dataEnded (s : State) : Claims s s.dataEnded := by
  unfold State.dataEnded
  split
  · exact .refl s
  · rename_i queue
    split
    · exact endHeadWith queue
    · exact .refl s

theorem setDataQueue {s : State} {x : DataDuty} {rest : List DataDuty} (queue : s.submission.queue = x :: rest) (y : DataDuty)
    (seq : y.seq = x.seq) : Claims s (s.setDataQueue (y :: rest)) :=
  .turnHead x y rest queue seq (.of_only_plain (withSubmission_only _ _)) rfl rfl

/-! ### Transmissions -/

theorem tellSent (s : State) (d : DutyRef) : Claims s (s.tellSent d) := by
  cases d with
  | replay d => exact (Claims.of_plain (count_only s .replaysSent)).trans (.replayEnded _ d)
  | gapreq i => exact .of_plain (requestSent_only s i)
  | data => exact .dataEnded s
  | beacon => exact .of_plain (withSched_only _ _)

theorem tellAbandoned (s : State) (d : DutyRef) : Claims s (s.tellAbandoned d) := by
  cases d with
  | replay d => exact .replayEnded _ d
  | gapreq i => exact .of_plain (requestAbandoned_only s i)
  | data => exact .dataEnded s
  | beacon => exact .of_plain (withSched_only _ _)

theorem tellCollision (s : State) (d : DutyRef) : Claims s (s.tellCollision d) := by
  cases d with
  | replay d =>
    simp only [State.tellCollision, State.replayCollided]
    split
    · exact .refl s
    · rename_i x there
      split
      · rename_i sends
        exact .setDuty there (by rw [sends]; nofun) _ nofun rfl rfl
      · exact .refl s
  | gapreq i => exact .of_plain (requestCollided_only s i)
  | data =>
    simp only [State.tellCollision, State.dataCollided]
    split
    · exact .refl s
    · rename_i queue
      split
      · exact .setDataQueue queue _ rfl
      · exact .refl s
  | beacon =>
    simp only [State.tellCollision]
    split
    · exact .of_plain (withSched_only _ _)
    · exact .refl s

theorem takeFrame {s t : State} {d : DutyRef} {f : Frame} (take : s.takeFrame d = some (f, t)) : Claims s t := by
  cases d with
  | replay d =>
    obtain ⟨⟨k, u⟩, taken, eq⟩ := Option.map_eq_some_iff.mp take
    cases eq
    unfold State.takeReplay at taken
    split at taken
    · cases taken
    · rename_i there
      split at taken <;> cases taken
      rename_i eligible
      exact .setDuty there (by rw [eligible]; nofun) _ nofun rfl rfl
  | gapreq i =>
    obtain ⟨u, taken, eq⟩ := Option.map_eq_some_iff.mp take
    cases eq
    exact .of_plain (takeRequest_only taken)
  | data =>
    obtain ⟨⟨k, u⟩, taken, eq⟩ := Option.map_eq_some_iff.mp take
    cases eq
    unfold State.takeData at taken
    split at taken
    · cases taken
    · rename_i queue
      split at taken <;> cases taken
      exact .setDataQueue queue _ rfl
  | beacon =>
    simp only [State.takeFrame] at take
    split at take <;> cases take
    exact .refl _

theorem startCommitted (s : State) (c : Commitment) : Claims s (s.startCommitted c) := by
  unfold State.startCommitted
  split
  · exact .of_plain (releaseCommitment_only s)
  · rename_i r take
    exact (Claims.takeFrame (t := r.2) take).trans (.of_plain ((withTrunk_only _ _).then (withSched_only _ _)))

/-! ### Station states -/

theorem quitActive (s : State) : Claims s s.quitActive :=
  ((Claims.of_plain (withSched_only s s.sched.leaveActive)).trans (.dropDuties _)).trans
    (.of_only (freeAllTrackers_only _) (.of_heldOnly (freeAllTrackers_heldOnly _)))

theorem enterMuted (s : State) (why : MuteReason) : Claims s (s.enterMuted why) :=
  .quit (keeps_station ((withStation_only s { s.station with state := .muted, muteReason := some why }).then
    (raise_only _ .muted)) (.of_contexts rfl) rfl rfl nofun) (.quitActive _) (quitActive_duty _)

theorem transmitterFree (s : State) : Claims s s.transmitterFree := by
  unfold State.transmitterFree
  split
  · rename_i leaving
    exact .other (keeps_station (enterReady_only s) (.enterReady s) rfl rfl nofun) fun _ => by rw [leaving]; nofun
  · exact .refl s

theorem muteRequest (s : State) : Claims s s.muteRequest := by
  unfold State.muteRequest
  split
  · exact .enterMuted _ _
  · exact .refl s

theorem acceptLeave (s : State) : Claims s s.acceptLeave := by
  unfold State.acceptLeave
  split
  · exact .quit (keeps_station (withStation_only s { s.station with state := .leaving, muteReason := none, listenTimer := none })
      (.of_contexts rfl) rfl rfl nofun) (.quitActive _) (quitActive_duty _)
  · exact .quit (keeps_station (enterReady_only s) (.enterReady s) rfl rfl nofun) (.quitActive _) (quitActive_duty _)

theorem readBackCells (s : State) (read : List (Option BurstCell)) : Claims s (s.readBackCells read) := by
  unfold State.readBackCells
  split
  · rename_i c _ _ _ _
    split
    · exact (((Claims.of_plain (withTrunk_only s _)).trans (.tellSent _ c.duty)).trans (.of_plain (withSched_only _ _))).trans
        (.transmitterFree _)
    · have jam : Claims s s.startJam := .of_plain (startJam_only s)
      unfold State.collides
      split
      · exact (jam.trans (.tellCollision _ c.duty)).trans (.of_plain (withSched_only _ _))
      · have told : Claims s ((s.startJam.tellAbandoned c.duty).noteAbandon.toJamming) :=
          (jam.trans (.tellAbandoned _ c.duty)).trans (.of_plain ((noteAbandon_only _).then (withSched_only _ _)))
        unfold State.abandon
        dsimp only
        split
        · exact told.trans (.muteRequest _)
        · exact told
    · exact .refl s
  · exact .refl s

end Claims

end Sys2Proof.Machine
end

section
/-! A good frame carries a payload of 1 to 120 bytes, and every command but the host's words, the resets and the turns of submission and
delivery is a frame heard followed by the part's own claims. -/

open Sys2Proof

namespace Sys2Proof.Machine

set_option Elab.async false

/-! ### Good frames -/

/-- A burst decided to be good shows no cause of a frame error (Table 8.4). -/
theorem decide_good {rx : RxPath} {f : Frame} (h : rx.decide = .good f) :
    f = readFrame rx.bytes ∧ ∀ c ∈ allCauses, rx.hasCause c = false := by
  unfold RxPath.decide at h
  split at h
  · split at h
    · cases h
    · rename_i clean
      cases h
      simpa using clean
  · cases h

theorem byteAt_le (bs : List Byte) (i : Nat) : (byteAt bs i).toNat < 256 := (byteAt bs i).isLt

/-- A good frame carries field values in range (R186). -/
theorem readFrame_wf {rx : RxPath} (clean : ∀ c ∈ allCauses, rx.hasCause c = false) : (readFrame rx.bytes).wf = true := by
  have range := clean .lengthOutOfRange (by decide)
  have count := clean .byteCount (by decide)
  have asked := clean .countOutOfRange (by decide)
  have positive {i : Nat} (h : byteAt rx.bytes i ≠ 0#8) : 1 ≤ (byteAt rx.bytes i).toNat :=
    Nat.one_le_iff_ne_zero.mpr fun z => h (BitVec.eq_of_toNat_eq z)
  unfold readFrame
  dsimp only
  split
  · rename_i data
    simp only [RxPath.hasCause, lengthField, data, if_true, Bool.or_eq_false_iff, beq_eq_false_iff_ne, ne_eq,
      decide_eq_false_iff_not, Nat.not_lt, frameLength, bne_eq_false_iff_eq] at range count
    obtain ⟨nonzero, small⟩ := range
    have := positive nonzero
    simp only [Frame.wf, List.length_take, List.length_drop, Bool.and_eq_true, decide_eq_true_eq]
    omega
  · split
    · rename_i notData replay
      have kinds : (0x32#8 : Byte) ≠ 0x31#8 := by decide
      simp only [RxPath.hasCause, lengthField, replay, kinds, if_true, if_false, Bool.or_eq_false_iff, beq_eq_false_iff_ne,
        ne_eq, decide_eq_false_iff_not, Nat.not_lt, frameLength, bne_eq_false_iff_eq] at range count
      obtain ⟨nonzero, small⟩ := range
      have := positive nonzero
      simp only [Frame.wf, List.length_take, List.length_drop, Bool.and_eq_true, decide_eq_true_eq]
      omega
    · split
      · rename_i gapreq
        simp only [RxPath.hasCause, gapreq, beq_self_eq_true, Bool.true_and, Bool.or_eq_false_iff, beq_eq_false_iff_ne, ne_eq,
          decide_eq_false_iff_not, Nat.not_lt] at asked
        obtain ⟨nonzero, small⟩ := asked
        simpa [Frame.wf, small] using positive nonzero
      · rfl

theorem decide_good_wf {rx : RxPath} {f : Frame} (h : rx.decide = .good f) : f.wf = true := by
  obtain ⟨rfl, clean⟩ := decide_good h
  exact readFrame_wf clean

/-! ### Frames at the part -/

/-- First what frames of others do to the messages held, then what the part's own units do. -/
def HeardThenClaims (s t : State) : Prop := ∃ u, Heard s u ∧ Claims u t

theorem HeardThenClaims.of_heard {s t : State} (h : Heard s t) : HeardThenClaims s t := ⟨t, h, .refl t⟩

theorem HeardThenClaims.of_claims {s t : State} (h : Claims s t) : HeardThenClaims s t := ⟨s, .refl s, h⟩

theorem HeardThenClaims.heard {s t u : State} (h : Heard s t) (k : HeardThenClaims t u) : HeardThenClaims s u :=
  have ⟨v, heard, claims⟩ := k
  ⟨v, h.trans heard, claims⟩

theorem wf_size {payload : List Byte} (h : (decide (1 ≤ payload.length) && decide (payload.length ≤ Config.maxPayload)) = true) :
    1 ≤ payload.length ∧ payload.length ≤ Config.maxPayload := by simpa using h

theorem distribute_messages {s : State} {f : Frame} (wf : f.wf = true) (peer : f.sender ≠ s.stn) :
    HeardThenClaims s (s.distribute f) := by
  cases f with
  | data origin epoch seq payload =>
    have size : 1 ≤ payload.length ∧ payload.length ≤ Config.maxPayload := wf_size (by simpa only [Frame.wf] using wf)
    have heard := classify_heard (m := ⟨⟨origin, epoch, seq⟩, payload⟩) ⟨peer, size⟩
    simp only [State.distribute, State.dataFrame]
    exact ⟨_, heard, .cancelKey _ _⟩
  | replay origin epoch seq replayer payload =>
    have size : 1 ≤ payload.length ∧ payload.length ≤ Config.maxPayload := wf_size (by simpa only [Frame.wf] using wf)
    simp only [State.distribute, State.replayFrame]
    split
    · exact ⟨_, .of_plain (hearReplay_only _ _), .cancelKey _ _⟩
    · rename_i other
      have heard := classify_heard (m := ⟨⟨origin, epoch, seq⟩, payload⟩) ⟨other, size⟩
      exact ⟨_, heard.trans (.of_plain (hearReplay_only _ _)), .cancelKey _ _⟩
  | gapreq requester origin epoch first count => exact ⟨_, .of_plain (hearGapreq_only _ _ _ _ _), .answerGapreq _ _ _ _ _ _⟩
  | beacon sender epoch nextSeq => exact .of_heard (takeBeacon_heard peer _ _)

theorem startListenTimer_claims (s : State) : Claims s s.startListenTimer :=
  .other (keeps_station (startListenTimer_only s) (.of_contexts rfl) rfl rfl id) id

theorem takeDecision_messages (s : State) {d : Decision} (wf : ∀ f, d = .good f → f.wf = true) :
    HeardThenClaims s (s.takeDecision d) := by
  unfold State.takeDecision
  split
  · exact .of_heard (.refl s)
  · have noted : Claims s ((s.count .rxError).raise .rxError) := .of_plain ((count_only _ _).then (raise_only _ _))
    unfold State.frameError
    dsimp only
    split
    · exact .of_claims (noted.trans (startListenTimer_claims _))
    · exact .of_claims noted
  · rename_i f
    unfold State.goodFrame
    split
    · have raised : Claims s (s.raise .clash) := .of_plain (raise_only _ _)
      unfold State.clash
      split
      · exact .of_claims (raised.trans (startListenTimer_claims _))
      · exact .of_claims (raised.trans (.enterMuted _ _))
      · exact .of_claims raised
      · exact .of_heard (.refl s)
      · exact .of_heard (.refl s)
      · exact .of_heard (.refl s)
    · rename_i peer
      have counted : Heard s ((s.count .rxGood).heard f.sender) :=
        (Heard.of_plain (count_only s .rxGood)).trans (heard_heard _ _)
      exact .heard counted (distribute_messages (wf f rfl) (by rw [counted.stn]; exact peer))

/-- A burst's end is a frame heard, and then claims; in SETUP and READY no frame is heard. -/
theorem burstEnds_messages (s : State) (cells : List BurstCell) :
    HeardThenClaims s (s.burstEnds cells) ∧ (s.trunk.rx.path = .off → Claims s (s.burstEnds cells)) := by
  unfold State.burstEnds
  split
  · exact ⟨.of_heard (.refl s), fun _ => .refl s⟩
  · split
    · exact ⟨.of_heard (.refl s), fun _ => .refl s⟩
    · have ended : Claims s (s.burstOver .off) := .of_plain (burstOver_only _ _)
      exact ⟨.of_claims ended, fun _ => ended⟩
    · rename_i off
      exact ⟨.heard (.of_plain (burstOver_only s .waiting)) (takeDecision_messages _ fun f => decide_good_wf),
        fun h => absurd h off⟩

/-! ### Duties whose delays run out -/

theorem mem_insertByOffset {first : SeqNum} {x y : Fin 16 × SeqNum} {l : List (Fin 16 × SeqNum)} :
    y ∈ insertByOffset first x l ↔ y = x ∨ y ∈ l := by
  induction l with
  | nil => simp [insertByOffset]
  | cons z l ih =>
    unfold insertByOffset
    split
    · simp
    · simp only [List.mem_cons, ih]
      tauto

theorem insertByOffset_perm (first : SeqNum) (x : Fin 16 × SeqNum) (l : List (Fin 16 × SeqNum)) :
    (insertByOffset first x l).Perm (x :: l) := by
  induction l with
  | nil => exact .refl _
  | cons z l ih =>
    unfold insertByOffset
    split
    · exact .refl _
    · exact (ih.cons z).trans (.swap x z l)

/-- The serial order is an order of the duties that run out. -/
theorem bySerialOrder_perm (l : List (Fin 16 × SeqNum)) : (bySerialOrder l).Perm l := by
  have fold (first : SeqNum) (l acc : List (Fin 16 × SeqNum)) :
      (l.foldl (fun acc x => insertByOffset first x acc) acc).Perm (l ++ acc) := by
    induction l generalizing acc with
    | nil => exact .refl _
    | cons x l ih =>
      refine (ih _).trans ?_
      exact ((insertByOffset_perm first x acc).append_left l).trans List.perm_middle
  cases l with
  | nil => exact .refl _
  | cons x l =>
    have h := fold (firstOf x.2 (l.map (·.2))) (x :: l) []
    rwa [List.append_nil] at h

/-- The duties that run out are different ones, in DELAY with their timers running. -/
theorem delaysRunning (s : State) (duties : List (Fin 16)) :
    let l := (bySerialOrder ((allDuties.filter fun d => duties.contains d).filterMap s.delayRuns))
    (l.map (·.1)).Nodup ∧ ∀ y ∈ l, y.1 ∈ duties ∧
      ∃ x, s.duty y.1 = some x ∧ x.state = .delay ∧ x.timer.isSome = true ∧ y.2 = x.key.seq := by
  have runs {d : Fin 16} {y : Fin 16 × SeqNum} (h : s.delayRuns d = some y) :
      y.1 = d ∧ ∃ x, s.duty d = some x ∧ x.state = .delay ∧ x.timer.isSome = true ∧ y.2 = x.key.seq := by
    unfold State.delayRuns at h
    split at h
    · rename_i x there
      split at h
      · rename_i due
        cases h
        exact ⟨rfl, x, there, due.1, due.2, rfl⟩
      · cases h
    · cases h
  have perm := bySerialOrder_perm ((allDuties.filter fun d => duties.contains d).filterMap s.delayRuns)
  refine ⟨(perm.map _).nodup_iff.mpr ?_, fun y mem => ?_⟩
  · have sub : List.Sublist (((allDuties.filter fun d => duties.contains d).filterMap s.delayRuns).map (·.1))
        (allDuties.filter fun d => duties.contains d) := by
      generalize allDuties.filter (fun d => duties.contains d) = l
      induction l with
      | nil => exact .slnil
      | cons d l ih =>
        cases h : s.delayRuns d with
        | none => simpa [h] using ih.cons d
        | some y => simpa [h, (runs h).1] using ih
    exact sub.nodup ((List.nodup_finRange 16).filter _)
  · obtain ⟨d, inside, run⟩ := List.mem_filterMap.mp (perm.mem_iff.mp mem)
    obtain ⟨eq, x, there, delays, timer, seq⟩ := runs run
    rw [eq]
    exact ⟨by simpa using (List.mem_filter.mp inside).2, x, there, delays, timer, seq⟩

theorem ripenAll_claims {s : State} {l : List (Fin 16 × SeqNum)} (nodup : (l.map (·.1)).Nodup)
    (delays : ∀ y ∈ l, ∃ x, s.duty y.1 = some x ∧ x.state = .delay) :
    Claims s (l.foldl (fun s x => s.makeEligible x.1) s) := by
  induction l generalizing s with
  | nil => exact .refl s
  | cons y l ih =>
    obtain ⟨fresh, nodup⟩ := List.nodup_cons.mp nodup
    obtain ⟨x, there, delay⟩ := delays y (by simp)
    have first : Claims s (s.makeEligible y.1) := by
      have only := makeEligible_only s y.1
      refine .ripen y.1 x there delay (.of_only_plain only) (only .station (by decide)) (fun e => ?_) ?_
      · rw [makeEligible_duty, there]; rfl
      · simp [State.makeEligible, there]
    refine first.trans (ih nodup fun z mem => ?_)
    obtain ⟨x', there', delay'⟩ := delays z (by simp [mem])
    refine ⟨x', ?_, delay'⟩
    have other : z.1 ≠ y.1 := fun eq => fresh (List.mem_map.mpr ⟨z, mem, eq⟩)
    rw [makeEligible_duty, if_neg other]
    exact there'

/-! ### Every other command -/

/-- The turns of the Submission Unit and of the Delivery Engine. -/
def isTurn : Instr → Bool
  | .dataWord _ _ => true
  | .deliveryTurn => true
  | _ => false

theorem takeDelivery_claims (s : State) : Claims s s.takeDelivery := by
  unfold State.takeDelivery
  split
  · exact .of_plain ((putOut_only _ _ _).then (raise_only _ _))
  · dsimp only
    split
    · exact (Claims.of_plain (putOut_only _ _ _)).trans (.dropHead _)
    · exact .other ⟨rfl, rfl, id, fun _ => rfl, fun _ => rfl, fun _ => rfl, fun _ => rfl, fun _ => .of_contexts rfl⟩ id

theorem listenTimer_claims {s t : State} (e : exec .listenTimerRunsOut s = .next t) : Claims s t := by
  obtain eq | ⟨-, -, eq⟩ := exec_listenTimer_cases e
  · rw [eq]; exact .refl s
  · rw [eq]
    have up : Claims s s.activated :=
      .other (keeps_station (activated_only s) (.of_contexts rfl) rfl rfl nofun) fun h => absurd rfl h
    exact up.trans (.of_only (offerAll_only _) (.of_heldOnly (offerAll_heldOnly _)))

theorem exec_messages {c : Instr} {s t : State} (e : exec c s = .next t) (host : ¬ isHostWord c = true)
    (reset : ¬ isReset c = true) (turn : ¬ isTurn c = true) :
    HeardThenClaims s t ∧ (s.trunk.rx.path = .off → Claims s t) := by
  have only := only_of_exec e
  have of_claims (h : Claims s t) : HeardThenClaims s t ∧ (s.trunk.rx.path = .off → Claims s t) := ⟨.of_claims h, fun _ => h⟩
  cases c with
  | deliveryTake =>
    simp only [exec, execDeliveryTake] at e
    split at e
    · exact of_claims (Host.Outcome.next.inj e ▸ .of_plain (putOut_only _ _ _))
    · exact of_claims (Host.Outcome.next.inj e ▸ takeDelivery_claims s)
  | selectionCommit =>
    simp only [exec, execSelectionCommit] at e
    split at e
    · split at e
      · refine of_claims ?_
        rw [← Host.Outcome.next.inj e, State.commit]
        dsimp only
        split
        · exact (Claims.of_plain (withSched_only _ _)).trans (.startCommitted _ _)
        · exact .of_plain (withSched_only _ _)
      · exact of_claims (Host.Outcome.next.inj e ▸ .refl s)
    · exact of_claims (Host.Outcome.next.inj e ▸ .refl s)
  | holdoffRunsOut =>
    simp only [exec, execHoldoffRunsOut] at e
    split at e
    · split at e
      · exact of_claims (Host.Outcome.next.inj e ▸ .startCommitted _ _)
      · exact of_claims (Host.Outcome.next.inj e ▸ .refl s)
    · exact of_claims (Host.Outcome.next.inj e ▸ .refl s)
  | frameEnd read => exact of_claims (Host.Outcome.next.inj e ▸ .readBackCells s read)
  | collision read => exact of_claims (Host.Outcome.next.inj e ▸ .readBackCells s read)
  | jamEnd =>
    simp only [exec, execJamEnd] at e
    split at e
    · exact of_claims (Host.Outcome.next.inj e ▸ (Claims.of_plain (withSched_only _ _)).trans (.transmitterFree _))
    · exact of_claims (Host.Outcome.next.inj e ▸ .refl s)
  | frameError cells | clash cells | rxData cells | rxReplay cells | rxGapreq cells | rxBeacon cells =>
    exact Host.Outcome.next.inj e ▸ burstEnds_messages s cells
  | repairTimeoutRunsOut i =>
    simp only [exec, execRepairTimeoutRunsOut] at e
    split at e
    · split at e
      · exact of_claims (Host.Outcome.next.inj e ▸ .of_plain (setTracker_only _ _ _))
      · exact of_claims (Host.Outcome.next.inj e ▸ .of_only (giveUpRun_only _ _) (.giveUpRun _ _))
    · exact of_claims (Host.Outcome.next.inj e ▸ .refl s)
    · exact of_claims (Host.Outcome.next.inj e ▸ .refl s)
  | replayDelayRunsOut duties =>
    obtain ⟨nodup, delays⟩ := delaysRunning s duties
    refine of_claims (Host.Outcome.next.inj e ▸ ripenAll_claims nodup fun y mem => ?_)
    obtain ⟨-, x, there, delay, -⟩ := delays y mem
    exact ⟨x, there, delay⟩
  | listenTimerRunsOut => exact of_claims (listenTimer_claims e)
  | silenceTimerRunsOut n =>
    simp only [exec, execSilenceTimerRunsOut] at e
    split at e
    · refine of_claims (Host.Outcome.next.inj e ▸ ?_)
      have stopped := OwnKept.setCtx (s := s) (o := n) (c := { s.ctx n with silent := true, silenceTimer := none }) Iff.rfl
        fun _ => rfl
      exact (Claims.of_only (setCtx_only _ _ _) stopped).trans (.of_plain (raise_only _ _))
    · exact of_claims (Host.Outcome.next.inj e ▸ .refl s)
  | _ => first
    | exact absurd rfl host
    | exact absurd rfl reset
    | exact absurd rfl turn
    | exact of_claims (.of_plain only (by simp [blocks]))

end Sys2Proof.Machine
end

section
/-! The claims of the store seen together, the data word's outcomes, and one induction for what the messages, duties and queues keep; the store's
canonical form (O10), the payloads (O18) and the pinned entries (O24). -/

open Sys2Proof

namespace Sys2Proof.Machine

set_option Elab.async false

/-! ### Claims on pins -/

/-- Keys, payloads and order stand, and the RESERVED cell. -/
structure PinsOnly (st st' : Store) : Prop where
  own : st'.own.map (fun e => (e.key, e.payload)) = st.own.map fun e => (e.key, e.payload)
  peer : st'.peer.map (fun e => (e.key, e.payload)) = st.peer.map fun e => (e.key, e.payload)
  reserved : st'.reserved = st.reserved

theorem PinsOnly.refl (st : Store) : PinsOnly st st := ⟨rfl, rfl, rfl⟩

theorem PinsOnly.mapPins (st : Store) (k : Key) (f : Pins → Pins) : PinsOnly st (st.mapPins k f) :=
  have ⟨own, peer, reserved⟩ := st.mapPins_keeps k f
  ⟨own, peer, reserved⟩

theorem PinsOnly.pinTx (st : Store) (k : Key) : PinsOnly st (st.pinTx k).2 := by
  rcases st.pinTx_cases k with h | h | h <;> rw [h]
  · exact .refl st
  · exact .refl st
  · exact .mapPins st k fun p => { p with tx := true }

theorem PinsOnly.hand (st : Store) (k : Key) : PinsOnly st (st.hand k).2 := by
  rcases st.hand_cases k with h | h | h <;> rw [h]
  · exact .refl st
  · exact .refl st
  · exact .mapPins st k fun p => { p with due := false, handed := true }

theorem PinsOnly.clearPin (st : Store) (k : Key) (carried : Pins → Bool) (remove : Pins → Pins) :
    PinsOnly st (st.clearPin k carried remove).2 := by
  rcases st.clearPin_cases k carried remove with h | h | h <;> rw [h]
  · exact .refl st
  · exact .refl st
  · exact .mapPins st k _

theorem PinsOnly.clearTx (st : Store) (k : Key) : PinsOnly st (st.clearTx k).2 := .clearPin st k _ _

theorem PinsOnly.clearHanded (st : Store) (k : Key) : PinsOnly st (st.clearHanded k).2 := .clearPin st k _ _

theorem PinsOnly.restartRelease (st : Store) (o : Station) (epoch : Epoch) : PinsOnly st (st.restartRelease o epoch) := by
  refine ⟨?_, ?_, rfl⟩ <;>
  · simp only [Store.restartRelease, Store.mapEntries, List.map_map]
    apply List.map_congr_left
    intro e _
    by_cases h : e.key.origin = o ∧ e.key.epoch = epoch <;> simp [h]

theorem PinsOnly.dropRecord (st : Store) (r : Record) : PinsOnly st (st.afterDrop r) := by
  cases r with
  | message k => exact .clearHanded st k
  | lost => exact .refl st
  | restart => exact .refl st

/-- Each entry after has one before with its key and payload, and each before has one after. -/
theorem mem_of_map_eq {α β : Type} {f : α → β} {l l' : List α} (h : l'.map f = l.map f) {a : α} (mem : a ∈ l) :
    ∃ b ∈ l', f b = f a := by
  have : f a ∈ l'.map f := by rw [h]; exact List.mem_map_of_mem mem
  exact List.mem_map.mp this

theorem PinsOnly.all {st st' : Store} (h : PinsOnly st st') :
    (st'.own ++ st'.peer).map (fun e => (e.key, e.payload)) = (st.own ++ st.peer).map fun e => (e.key, e.payload) := by
  rw [List.map_append, List.map_append, h.own, h.peer]

theorem PinsOnly.mem {st st' : Store} (h : PinsOnly st st') {e : Entry} (mem : e ∈ st.own ++ st.peer) :
    ∃ e' ∈ st'.own ++ st'.peer, e'.key = e.key ∧ e'.payload = e.payload := by
  obtain ⟨e', mem', eq⟩ := mem_of_map_eq h.all mem
  exact ⟨e', mem', congrArg Prod.fst eq, congrArg Prod.snd eq⟩

theorem PinsOnly.symm {st st' : Store} (h : PinsOnly st st') : PinsOnly st' st := ⟨h.own.symm, h.peer.symm, h.reserved.symm⟩

theorem PinsOnly.keys {st st' : Store} (h : PinsOnly st st') :
    (st'.own ++ st'.peer).map (fun e => e.key) = (st.own ++ st.peer).map fun e => e.key := by
  simpa only [List.map_map, Function.comp_def] using congrArg (List.map Prod.fst) h.all

theorem PinsOnly.purged {st : Store} (h : PinsOnly Store.purged st) : st = Store.purged := by
  obtain ⟨own, peer, reserved⟩ := h
  obtain ⟨a, b, c⟩ := st
  simp_all [Store.purged]

/-! ### The insert claim for another station's entry -/

theorem insert_peer {st : Store} {stn : Station} {share : Nat} {e : Entry} (peer : e.key.origin ≠ stn) :
    (st.insert stn share e).2 = st ∨ st.find e.key = none ∧ ∃ kept, (st.insert stn share e).2 = { st with peer := kept ++ [e] } ∧
      (kept = st.peer ∧ 0 < st.peerFree share ∨ ∃ v, evictOldest st.peer = some (v, kept)) := by
  unfold Store.insert
  split
  · exact .inl rfl
  · rename_i absent
    rw [if_neg peer]
    rcases placeEntry_cases (st.peerFree share) st.peer e with ⟨free, place⟩ | ⟨-, v, rest, evict, place⟩ | ⟨-, -, place⟩
    · rw [place]; exact .inr ⟨absent, st.peer, rfl, .inl ⟨rfl, free⟩⟩
    · rw [place]; exact .inr ⟨absent, rest, rfl, .inr ⟨v, evict⟩⟩
    · rw [place]; exact .inl rfl

theorem evictOldest_sublist {es rest : List Entry} {v : Entry} (h : evictOldest es = some (v, rest)) : rest.Sublist es := by
  obtain ⟨older, younger, rfl, rfl, -, -⟩ := evictOldest_eq_some.mp h
  exact (List.Sublist.refl older).append (List.sublist_cons_self v younger)

/-- The entries kept by an insert were there, and all pinned ones are kept. -/
theorem insert_peer_kept {st : Store} {stn : Station} {share : Nat} {e : Entry} (peer : e.key.origin ≠ stn) :
    (st.insert stn share e).2 = st ∨ st.find e.key = none ∧ ∃ kept, (st.insert stn share e).2 = { st with peer := kept ++ [e] } ∧
      kept.Sublist st.peer ∧ ∀ x ∈ st.peer, x.pins.isEmpty = false → x ∈ kept := by
  rcases insert_peer peer (st := st) (share := share) with h | ⟨absent, kept, h, ⟨rfl, -⟩ | ⟨v, evict⟩⟩
  · exact .inl h
  · exact .inr ⟨absent, st.peer, h, .refl _, fun x mem _ => mem⟩
  · exact .inr ⟨absent, kept, h, evictOldest_sublist evict, fun x mem pinned => evictOldest_keeps evict mem pinned⟩

theorem reserve_kept {share : Nat} {st st' : Store} (h : st.reserve share = some st') :
    st.reserved = none ∧ st'.reserved = some [] ∧ st'.peer = st.peer ∧ st'.own.Sublist st.own ∧
      ∀ x ∈ st.own, x.pins.isEmpty = false → x ∈ st'.own := by
  obtain ⟨none, some, peer, ⟨-, own⟩ | ⟨-, v, evict⟩⟩ := Store.reserve_eq_some h
  · exact ⟨none, some, peer, by rw [own], by rw [own]; exact fun x mem _ => mem⟩
  · exact ⟨none, some, peer, evictOldest_sublist evict, fun x mem pinned => evictOldest_keeps evict mem pinned⟩

/-! ### A data word -/

/-- What a data word taken while WRDY is asserted comes to in the store and the Submission Unit (R113 to R116). -/
inductive WordTaken (s t : State) (w : Word) : Prop
  /-- nothing of it stays -/
  | dropped (store : t.store = s.store) (submission : t.submission = s.submission)
  /-- a word 0 out of range, or the end of what is dropped -/
  | between (store : t.store = s.store) (before : s.submission.asm = .idle ∨ s.submission.asm = .discarding) (a : AssemblyState)
      (now : a = .idle ∨ a = .discarding) (submission : t.submission = { s.submission with asm := a })
  | starts (st : Store) (reserve : s.store.reserve s.setup.ownShare = some st) (before : s.submission.asm = .idle)
      (range : 1 ≤ w.toNat ∧ w.toNat ≤ Config.maxPayload) (store : t.store = st)
      (submission : t.submission =
        { s.submission with asm := .assembling, length := w.toNat, expected := (w.toNat + 1) / 2, taken := 0 })
  | collects (before : s.submission.asm = .assembling) (store : t.store = s.store.writeReserved (s.submission.bytesOf w))
      (more : s.submission.taken + 1 < s.submission.expected)
      (submission : t.submission = { s.submission with taken := s.submission.taken + 1 })
  | awaits (before : s.submission.asm = .assembling) (store : t.store = s.store.writeReserved (s.submission.bytesOf w))
      (last : s.submission.expected ≤ s.submission.taken + 1)
      (submission : t.submission = { s.submission with taken := s.submission.taken + 1, asm := .awaitingEnd })
  | rejects (before : s.submission.asm = .assembling ∨ s.submission.asm = .awaitingEnd)
      (store : t.store = { s.store with reserved := none }) (a : AssemblyState) (now : a = .idle ∨ a = .discarding) (n : Nat)
      (submission : t.submission = { s.submission with asm := a, taken := n })
  /-- the last word of a message with WEND: the completion claim -/
  | completes (before : s.submission.asm = .assembling) (last : s.submission.expected ≤ s.submission.taken + 1)
      (answer : CompletionAnswer) (st : Store)
      (claim : (s.store.writeReserved (s.submission.bytesOf w)).complete s.nextKey s.completionPins = (answer, st))
      (store : t.store = st)
      (submission : t.submission =
        { s.submission with
          taken := s.submission.taken + 1
          asm := .idle
          nextSeq := if answer = .stored then s.submission.nextSeq + 1 else s.submission.nextSeq
          queue :=
            if answer = .stored then
              s.submission.queue ++ [{ seq := s.submission.nextSeq, count := 0, marker := .waiting }]
            else s.submission.queue })

theorem rejectSubmission_store (s : State) (wend : Bool) :
    (s.rejectSubmission wend).store = { s.store with reserved := none } ∧
      (s.rejectSubmission wend).submission = { s.submission with asm := asmAfterReject wend } := by
  have submission : (s.applyStore s.store.release.2).submission = s.submission := applyStore_only _ _ .submission (by decide)
  refine ⟨by simp [State.rejectSubmission, State.setAsm, State.raise], ?_⟩
  unfold State.rejectSubmission State.setAsm State.raise
  rw [State.withSubmission_submission, State.withEvents_submission, submission]

theorem asmAfterReject_cases (wend : Bool) : asmAfterReject wend = .idle ∨ asmAfterReject wend = .discarding := by
  cases wend <;> simp [asmAfterReject]

theorem completeMessage_cases {s : State} {answer : CompletionAnswer} {st : Store}
    (claim : s.store.complete s.nextKey s.completionPins = (answer, st)) :
    s.completeMessage.store = st ∧ s.completeMessage.submission =
      { s.submission with
        asm := .idle
        nextSeq := if answer = .stored then s.submission.nextSeq + 1 else s.submission.nextSeq
        queue :=
          if answer = .stored then s.submission.queue ++ [{ seq := s.submission.nextSeq, count := 0, marker := .waiting }]
          else s.submission.queue } := by
  have submission : (s.applyStore st).submission = s.submission := applyStore_only _ _ .submission (by decide)
  unfold State.completeMessage
  rw [claim]
  cases answer <;> simp [State.setAsm, State.raise, submission]

theorem payloadWord_taken {s : State} (before : s.submission.asm = .assembling) (w : Word) (wend : Bool) :
    WordTaken s (s.payloadWord w wend) w := by
  unfold State.payloadWord
  dsimp only
  split
  · rename_i more
    split
    · obtain ⟨store, submission⟩ := rejectSubmission_store ((s.withStore (s.store.writeReserved (s.submission.bytesOf w))).withSubmission
        { s.submission with taken := s.submission.taken + 1 }) wend
      exact .rejects (.inl before) store _ (asmAfterReject_cases wend) _ submission
    · exact .collects before rfl more rfl
  · rename_i last
    have last : s.submission.expected ≤ s.submission.taken + 1 := Nat.not_lt.mp last
    split
    · cases claim : (s.store.writeReserved (s.submission.bytesOf w)).complete s.nextKey s.completionPins with
      | mk answer st =>
        obtain ⟨store, submission⟩ := completeMessage_cases
          (s := (s.withStore (s.store.writeReserved (s.submission.bytesOf w))).withSubmission
            { s.submission with taken := s.submission.taken + 1 }) (answer := answer) (st := st) claim
        exact .completes before last answer st claim store submission
    · exact .awaits before rfl last rfl

theorem takeDataWord_taken (s : State) (w : Word) (wend : Bool) : WordTaken s (s.takeDataWord w wend) w := by
  unfold State.takeDataWord
  split
  · rename_i idle
    unfold State.wordZero
    split
    · exact .dropped rfl rfl
    · split
      · exact .between rfl (.inl idle) .discarding (.inr rfl) rfl
      · rename_i range
        split
        · rename_i st reserve
          exact .starts st reserve idle (by omega) (applyStore_store _ _) rfl
        · exact .dropped rfl rfl
  · rename_i assembling
    exact payloadWord_taken assembling w wend
  · rename_i awaiting
    obtain ⟨store, submission⟩ := rejectSubmission_store s wend
    exact .rejects (.inr awaiting) store _ (asmAfterReject_cases wend) _ submission
  · rename_i discarding
    split
    · exact .between rfl (.inr discarding) .idle (.inl rfl) rfl
    · exact .dropped rfl rfl

/-- A completion stores the message, frees the cell because the key is held, or finds no cell (R14). -/
theorem complete_cases {st st' : Store} {k : Key} {pins : Pins} {answer : CompletionAnswer}
    (h : st.complete k pins = (answer, st')) :
    (answer = .noneReserved ∧ st.reserved = none ∧ st' = st) ∨
      (answer = .present ∧ st.reserved.isSome = true ∧ st.present k = true ∧ st' = { st with reserved := none }) ∨
      (∃ bytes, answer = .stored ∧ st.reserved = some bytes ∧ st.present k = false ∧
        st' = { st with own := st.own ++ [{ key := k, payload := bytes, pins := pins }], reserved := none }) := by
  unfold Store.complete at h
  split at h
  · rename_i none
    cases h
    exact .inl ⟨rfl, none, rfl⟩
  · rename_i bytes some
    split at h
    · rename_i present
      cases h
      exact .inr (.inl ⟨rfl, by rw [some]; rfl, present, rfl⟩)
    · rename_i absent
      cases h
      exact .inr (.inr ⟨bytes, rfl, some, by simpa using absent, rfl⟩)

/-! ### One induction for all of them -/

/-- A host command but SET and JOIN is one of the part's own claims. -/
theorem execute_claims (s : State) {c : Command} (args : List Word) (notSet : c ≠ .set) (notJoin : c ≠ .join) :
    Claims s (s.execute c args).after := by
  have only := execute_only s c args
  cases c with
  | set => exact absurd rfl notSet
  | join => exact absurd rfl notJoin
  | leave =>
    simp only [State.execute, State.leaveTrunk]
    split
    · exact .acceptLeave s
    · exact .refl s
  | recover =>
    simp only [State.execute, State.recoverStation]
    split
    · rename_i muted
      exact .other (keeps_station (withStation_only s
        { s.station with state := .listening, muteReason := none, listenTimer := some s.setup.listenPeriod })
        (.of_contexts rfl) rfl rfl nofun) fun _ => by rw [muted]; nofun
    · exact .refl s
  | discardHead =>
    simp only [State.execute, State.discard]
    split
    · exact .refl s
    · exact .dropHead s
  | _ => exact .of_plain only

/-- What frames heard, the part's claims, the turns of submission and delivery, SET, JOIN and the resets keep, every command keeps. -/
theorem exec_keeps {I : State → Prop} {c : Instr} {s t : State} (e : exec c s = .next t) (mode : ModeSound s)
    (heard : ∀ s t, s.station.state ≠ .setup → Heard s t → I s → I t) (claims : ∀ s t, Claims s t → I s → I t)
    (fresh : ∀ t e, Fresh t e → (t.setup = Setup.defaults ∨ ∃ s, I s ∧ t.setup = s.setup) → I t)
    (set : ∀ s field v, s.station.state = .setup → I s → I (s.withStation { s.station with setup := (s.setup.write field v).2 }))
    (join : ∀ s, s.station.state = .setup ∨ s.station.state = .ready → I s → I s.acceptJoin)
    (data : ∀ w wend, s.wrdy = true → I (s.takeDataWord w wend))
    (turn : ∀ o, s.delivery.queue.length < Config.deliverySize → s.nextReady = some o → I (s.serve o))
    (i : I s) : I t := by
  by_cases host : isHostWord c = true
  · refine hostWord_keeps (I := I) (fun s t only h => claims s t (.of_plain only) h) (fun s c args _ h => ?_) host e i
    by_cases isSet : c = .set
    · subst isSet
      simp only [State.execute, State.setField]
      split
      · rename_i inside; exact set s _ _ inside h
      · exact h
    · by_cases isJoin : c = .join
      · subst isJoin
        simp only [State.execute, State.joinTrunk]
        split
        · rename_i off; exact join s off h
        · exact h
      · exact claims _ _ (execute_claims s args isSet isJoin) h
  by_cases reset : isReset c = true
  · obtain rfl | ⟨⟨e, f⟩, setup⟩ := exec_reset_cases reset e
    · exact i
    · exact fresh t e f (setup.imp id fun eq => ⟨s, i, eq⟩)
  by_cases isTurn' : isTurn c = true
  · cases c with
    | dataWord w wend =>
      simp only [exec, execDataWord] at e
      split at e
      · exact Host.Outcome.next.inj e ▸ i
      · split at e
        · rename_i ready
          exact Host.Outcome.next.inj e ▸ data w wend ready
        · exact Host.Outcome.next.inj e ▸ claims _ _ (.of_plain (raise_only _ _)) i
    | deliveryTurn =>
      simp only [exec, execDeliveryTurn] at e
      split at e
      · rename_i room
        split at e
        · rename_i o ready
          exact Host.Outcome.next.inj e ▸ turn o room ready
        · exact Host.Outcome.next.inj e ▸ i
      · exact Host.Outcome.next.inj e ▸ i
    | _ => exact absurd isTurn' Bool.false_ne_true
  · obtain ⟨⟨u, heardFirst, then_⟩, off⟩ := exec_messages e host reset isTurn'
    by_cases inside : s.station.state = .setup
    · exact claims s t (off (mode.path.mpr (.inl inside))) i
    · exact claims u t then_ (heard s u inside heardFirst i)

/-- WRDY is low in SETUP (R111). -/
theorem not_setup_of_wrdy {s : State} (h : s.wrdy = true) : s.station.state ≠ .setup := fun inside => by
  rw [wrdy_of_setup inside] at h
  cases h

theorem withPending_mode {s : State} (l : List Instr) (h : ModeSound s) : ModeSound (s.withPending l) :=
  h.of_only (withPending_only s l)

end Sys2Proof.Machine
end

section
/-! The store's canonical form (O10), the entries that pins keep (O24), the Submission Unit (O14) and the payloads (O18). -/

open Sys2Proof

namespace Sys2Proof.Machine

set_option Elab.async false

/-! ### The store's canonical form -/

theorem StoreSound.pinsOnly {s t : State} (h : StoreSound s) (pins : PinsOnly s.store t.store) (stn : t.stn = s.stn)
    (setup : t.setup.ownShare = s.setup.ownShare) (inside : t.station.state = .setup → s.station.state = .setup) :
    StoreSound t where
  keys := by rw [pins.keys]; exact h.keys
  own e mem := by
    obtain ⟨e', mem', eq⟩ := mem_of_map_eq pins.own.symm mem
    rw [stn, ← (Prod.mk.inj eq).1]
    exact h.own e' mem'
  peer e mem := by
    obtain ⟨e', mem', eq⟩ := mem_of_map_eq pins.peer.symm mem
    rw [stn, ← (Prod.mk.inj eq).1]
    exact h.peer e' mem'
  ownRoom := by
    have length : t.store.own.length = s.store.own.length := by simpa using congrArg List.length pins.own
    rw [length, Store.reservedCells, pins.reserved, setup]
    exact h.ownRoom
  peerRoom := by
    have length : t.store.peer.length = s.store.peer.length := by simpa using congrArg List.length pins.peer
    rw [length, setup]
    exact h.peerRoom
  share := by rw [setup]; exact h.share
  setupEmpty now := (h.setupEmpty (inside now) ▸ pins : PinsOnly Store.purged t.store).purged

theorem StoreSound.congr {s t : State} (h : StoreSound s) (store : t.store = s.store) (stn : t.stn = s.stn)
    (setup : t.setup.ownShare = s.setup.ownShare) (inside : t.station.state = .setup → s.station.state = .setup) :
    StoreSound t := h.pinsOnly (by rw [store]; exact .refl _) stn setup inside

theorem StoreSound.keeps {bs : List Block} {s t : State} (h : StoreSound s) (keeps : Keeps bs s t)
    (pins : PinsOnly s.store t.store) : StoreSound t :=
  h.pinsOnly pins keeps.stn (congrArg Setup.ownShare keeps.setup) keeps.inside

/-- The own share holds other entries, with the RESERVED cell within its size. -/
theorem StoreSound.ownShare {s t : State} (h : StoreSound s) (peer : t.store.peer = s.store.peer)
    (keys : (t.store.own.map fun e => e.key).Nodup) (own : ∀ e ∈ t.store.own, e.key.origin = s.stn)
    (room : t.store.own.length + t.store.reservedCells ≤ s.setup.ownShare) (station : t.station = s.station)
    (on : s.station.state ≠ .setup) : StoreSound t := by
  have stn : t.stn = s.stn := congrArg StationControl.stn station
  have setup : t.setup = s.setup := congrArg StationControl.setup station
  obtain ⟨_, old, others, _, peerRoom, share, _⟩ := h
  refine ⟨?_, ?_, ?_, ?_, ?_, ?_, fun inside => absurd (station ▸ inside) on⟩
  · rw [List.map_append]
    refine keys.append ?_ ?_
    · rw [peer]; rw [List.map_append] at *; exact (List.nodup_append.mp ‹_›).2.1
    · intro k inOwn inPeer
      obtain ⟨a, ha, rfl⟩ := List.mem_map.mp inOwn
      obtain ⟨b, hb, eq⟩ := List.mem_map.mp inPeer
      exact others b (peer ▸ hb) (by rw [eq]; exact own a ha)
  · rw [stn]; exact own
  · rw [peer, stn]; exact others
  · rw [setup]; exact room
  · rw [peer, setup]; exact peerRoom
  · rw [setup]; exact share

theorem StoreSound.insert {s t : State} (h : StoreSound s) {e : Entry} (peer : e.key.origin ≠ s.stn)
    (store : t.store = (s.store.insert s.stn s.setup.ownShare e).2) (station : t.station = s.station)
    (on : s.station.state ≠ .setup) : StoreSound t := by
  have stn : t.stn = s.stn := congrArg StationControl.stn station
  have setup : t.setup = s.setup := congrArg StationControl.setup station
  have inside : t.station.state = .setup → s.station.state = .setup := by rw [station]; exact id
  rcases insert_peer peer (st := s.store) (share := s.setup.ownShare) with same | ⟨absent, kept, eq, how⟩
  · exact h.congr (store.trans same) stn (by rw [setup]) inside
  · have sub : kept.Sublist s.store.peer := by
      rcases how with ⟨rfl, -⟩ | ⟨v, evict⟩
      · exact .refl _
      · exact evictOldest_sublist evict
    have size : kept.length + 1 ≤ Config.cells - s.setup.ownShare := by
      have room := h.peerRoom
      rcases how with ⟨rfl, free⟩ | ⟨v, evict⟩
      · rw [Store.peerFree] at free; omega
      · have := (evictOldest_counts evict).1; omega
    have fresh := Store.find_eq_none.mp absent
    rw [eq] at store
    constructor
    · rw [store]
      have before : ((s.store.own ++ kept).map fun e => e.key).Nodup :=
        h.keys.sublist (((List.Sublist.refl _).append sub).map _)
      rw [← List.append_assoc, List.map_append, List.map_cons, List.map_nil]
      refine before.append (by simp) fun k inside one => ?_
      obtain ⟨x, mem, rfl⟩ := List.mem_map.mp inside
      refine fresh x ?_ (by simpa using one)
      exact List.mem_append.mpr ((List.mem_append.mp mem).imp id (sub.subset ·))
    · rw [store, stn]; exact h.own
    · rw [store, stn]
      intro x mem
      rcases List.mem_append.mp mem with mem | mem
      · exact h.peer x (sub.subset mem)
      · rw [List.mem_singleton.mp mem]; exact peer
    · rw [store, setup]; exact h.ownRoom
    · rw [store, setup]; simpa using size
    · rw [setup]; exact h.share
    · exact fun now => absurd (inside now) on

theorem StoreSound.heard {s t : State} (on : s.station.state ≠ .setup) (heard : Heard s t) (h : StoreSound s) :
    StoreSound t := by
  induction heard with
  | refl => exact h
  | trans first _ one two => exact two (by rw [first.station]; exact on) (one on h)
  | other keeps => exact h.keeps keeps (by rw [keeps.store (by decide)]; exact .refl _)
  | insert e peer _ _ _ still store => exact h.insert peer store still on
  | withhold o epoch _ keeps _ store => exact h.keeps keeps (store ▸ .restartRelease _ _ _)

/-- The part's own claims change pins alone. -/
theorem Claims.pinsOnly {s t : State} (claims : Claims s t) : PinsOnly s.store t.store := by
  have same {s t : State} {bs : List Block} (keeps : Keeps bs s t) (out : Block.store ∉ bs) : PinsOnly s.store t.store := by
    rw [keeps.store out]; exact .refl _
  induction claims with
  | refl => exact .refl _
  | trans _ _ one two => exact ⟨two.own.trans one.own, two.peer.trans one.peer, two.reserved.trans one.reserved⟩
  | other keeps => exact same keeps (by decide)
  | quit keeps _ _ ih => exact keeps.store (by decide) ▸ ih
  | makeDuty _ _ _ _ _ _ _ _ store => exact store ▸ .pinTx _ _
  | endDuty _ _ _ _ _ store => exact store ▸ .clearTx _ _
  | turnDuty _ _ _ _ _ _ _ _ keeps => exact same keeps (by decide)
  | ripen _ _ _ _ keeps => exact same keeps (by decide)
  | dropRecord r _ _ _ _ _ store => exact store ▸ .dropRecord _ r
  | turnHead _ _ _ _ _ keeps => exact same keeps (by decide)
  | endHead _ _ _ _ _ store => exact store ▸ .clearTx _ _

theorem Claims.station {s t : State} (claims : Claims s t) :
    t.stn = s.stn ∧ t.setup = s.setup ∧ (t.station.state = .setup → s.station.state = .setup) := by
  have of_keeps {s t : State} {bs : List Block} (keeps : Keeps bs s t) :
      t.stn = s.stn ∧ t.setup = s.setup ∧ (t.station.state = .setup → s.station.state = .setup) :=
    ⟨keeps.stn, keeps.setup, keeps.inside⟩
  induction claims with
  | refl => exact ⟨rfl, rfl, id⟩
  | trans _ _ one two => exact ⟨two.1.trans one.1, two.2.1.trans one.2.1, one.2.2 ∘ two.2.2⟩
  | other keeps => exact of_keeps keeps
  | quit keeps _ _ ih => exact ⟨ih.1.trans keeps.stn, ih.2.1.trans keeps.setup, keeps.inside ∘ ih.2.2⟩
  | makeDuty _ _ _ _ _ _ keeps => exact of_keeps keeps
  | endDuty _ _ _ keeps => exact of_keeps keeps
  | turnDuty _ _ _ _ _ _ _ _ keeps => exact of_keeps keeps
  | ripen _ _ _ _ keeps => exact of_keeps keeps
  | dropRecord _ _ _ keeps => exact of_keeps keeps
  | turnHead _ _ _ _ _ keeps => exact of_keeps keeps
  | endHead _ _ _ keeps => exact of_keeps keeps

theorem StoreSound.claims {s t : State} (claims : Claims s t) (h : StoreSound s) : StoreSound t :=
  have ⟨stn, setup, inside⟩ := claims.station
  h.pinsOnly claims.pinsOnly stn (by rw [setup]) inside

theorem StoreSound.taken {s t : State} {w : Word} (taken : WordTaken s t w) (station : t.station = s.station)
    (on : s.station.state ≠ .setup) (h : StoreSound s) : StoreSound t := by
  have stn : t.stn = s.stn := congrArg StationControl.stn station
  have setup : t.setup.ownShare = s.setup.ownShare := congrArg (fun x => x.setup.ownShare) station
  have inside : t.station.state = .setup → s.station.state = .setup := by rw [station]; exact id
  have ownKeys : (s.store.own.map fun e => e.key).Nodup := by
    have := h.keys
    rw [List.map_append] at this
    exact (List.nodup_append.mp this).1
  have cells : (s.store.writeReserved (s.submission.bytesOf w)).reservedCells = s.store.reservedCells := by
    simp [Store.reservedCells, Store.writeReserved]
  cases taken with
  | dropped store => exact h.congr store stn setup inside
  | between store => exact h.congr store stn setup inside
  | starts st reserve _ _ store =>
    obtain ⟨none, some, peer, sub, -⟩ := reserve_kept reserve
    refine h.ownShare (by rw [store, peer]) ?_ ?_ ?_ station on
    · rw [store]; exact ownKeys.sublist (sub.map _)
    · rw [store]; exact fun e mem => h.own e (sub.subset mem)
    · rw [store]
      have room := h.ownRoom
      obtain ⟨-, -, -, ⟨free, own⟩ | ⟨-, v, evict⟩⟩ := Store.reserve_eq_some reserve
      · simp only [Store.reservedCells, some, own, Store.ownFree, none] at *
        simp at *
        omega
      · have := (evictOldest_counts evict).1
        simp only [Store.reservedCells, some, none] at *
        simp at *
        omega
  | collects _ store =>
    exact h.ownShare (by rw [store]; rfl) (by rw [store]; exact ownKeys) (by rw [store]; exact h.own)
      (by rw [store, cells]; exact h.ownRoom) station on
  | awaits _ store =>
    exact h.ownShare (by rw [store]; rfl) (by rw [store]; exact ownKeys) (by rw [store]; exact h.own)
      (by rw [store, cells]; exact h.ownRoom) station on
  | rejects _ store =>
    refine h.ownShare (by rw [store]) (by rw [store]; exact ownKeys) (by rw [store]; exact h.own) ?_ station on
    rw [store]
    exact Nat.le_trans (by simp [Store.reservedCells]) h.ownRoom
  | completes _ _ answer st claim store =>
    subst store
    rcases complete_cases claim with ⟨-, -, eq⟩ | ⟨-, -, -, eq⟩ | ⟨bytes, -, some, absent, eq⟩ <;> rw [eq] at claim <;> clear claim
    · exact h.ownShare (by rw [eq]; rfl) (by rw [eq]; exact ownKeys) (by rw [eq]; exact h.own)
        (by rw [eq, cells]; exact h.ownRoom) station on
    · refine h.ownShare (by rw [eq]; rfl) (by rw [eq]; exact ownKeys) (by rw [eq]; exact h.own) ?_ station on
      rw [eq]
      exact Nat.le_trans (by simp [Store.reservedCells, Store.writeReserved]) h.ownRoom
    · refine h.ownShare (by rw [eq]; rfl) ?_ ?_ ?_ station on
      · rw [eq, List.map_append, List.map_cons, List.map_nil]
        refine ownKeys.append (by simp) fun k inOwn one => ?_
        obtain ⟨x, mem, rfl⟩ := List.mem_map.mp inOwn
        have : (s.store.writeReserved (s.submission.bytesOf w)).present s.nextKey = true :=
          Store.present_iff.mpr ⟨x, List.mem_append.mpr (.inl mem), by simpa using one⟩
        rw [absent] at this
        cases this
      · rw [eq]
        intro x mem
        rcases List.mem_append.mp mem with mem | mem
        · exact h.own x mem
        · rw [List.mem_singleton.mp mem]; rfl
      · rw [eq]
        have room := h.ownRoom
        have : s.store.reservedCells = 1 := by rw [← cells, Store.reservedCells, some]; rfl
        rw [this] at room
        simpa [Store.reservedCells, Store.writeReserved] using room

theorem takeDataWord_station (s : State) (w : Word) (wend : Bool) : (s.takeDataWord w wend).station = s.station :=
  takeDataWord_only s w wend .station (by decide)

/-- A turn of the Delivery Engine changes pins alone. -/
theorem serve_pinsOnly (s : State) (o : Station) : PinsOnly s.store (s.serve o).store := by
  unfold State.serve
  dsimp only
  split
  · refine (advance_only _ _ _ .store (by decide)).symm ▸ ?_
    exact (applyStore_store (s.withDelivery _) _).symm ▸ .hand _ _
  · exact (advance_only _ _ _ .store (by decide)).symm ▸ .refl _
  · exact .refl _
  · exact .refl _

theorem write_share {x : Setup} {field v : Nat} (share : 8 ≤ x.ownShare ∧ x.ownShare ≤ 512) :
    8 ≤ (x.write field v).2.ownShare ∧ (x.write field v).2.ownShare ≤ 512 := by
  have put {inside : Bool} {y : Setup} (eq : y.ownShare = x.ownShare) :
      8 ≤ (x.put inside y).2.ownShare ∧ (x.put inside y).2.ownShare ≤ 512 := by
    unfold Setup.put
    split
    · exact eq ▸ share
    · exact share
  unfold Setup.write
  split
  case h_1 =>
    unfold Setup.put
    split
    · rename_i fits
      simpa [within] using fits
    · exact share
  case h_13 => exact share
  all_goals exact put rfl

theorem StoreSound.set {s : State} (inside : s.station.state = .setup) (field v : Nat) (h : StoreSound s) :
    StoreSound (s.withStation { s.station with setup := (s.setup.write field v).2 }) := by
  have empty := h.setupEmpty inside
  have none {p : Entry → Prop} : ∀ e ∈ Store.purged.own, p e := nofun
  refine ⟨h.keys, h.own, h.peer, ?_, ?_, write_share h.share, h.setupEmpty⟩
  · rw [State.withStation_store, empty]; exact Nat.zero_le _
  · rw [State.withStation_store, empty]; exact Nat.zero_le _

theorem acceptJoin_station (s : State) : s.acceptJoin.station =
    { s.station with state := .listening, listenTimer := some s.setup.listenPeriod } := by
  unfold State.acceptJoin
  dsimp only
  split <;> rfl

theorem storeSound_exec {c : Instr} {s t : State} (e : exec c s = .next t) (mode : ModeSound s) (h : StoreSound s) :
    StoreSound t := by
  refine exec_keeps e mode (fun _ _ on heard h => h.heard on heard) (fun _ _ claims h => h.claims claims) ?_
    (fun _ field v inside h => h.set inside field v) ?_ (fun w wend ready => ?_) (fun o _ _ => ?_) h
  · rintro t e fresh (defaults | ⟨s, h, same⟩)
    · exact fresh.storeSound (by rw [defaults]; decide)
    · exact fresh.storeSound (by rw [same]; exact h.share)
  · intro s _ h
    have station := acceptJoin_station s
    exact h.congr (acceptJoin_only s .store (by decide)) (by rw [State.stn, station]; rfl)
      (by rw [State.setup, station]; rfl) (by rw [station]; nofun)
  · exact h.taken (takeDataWord_taken s w wend) (takeDataWord_station s w wend) (not_setup_of_wrdy ready)
  · have station : (s.serve o).station = s.station := serve_only s o .station (by decide)
    exact h.pinsOnly (serve_pinsOnly s o) (congrArg StationControl.stn station)
      (congrArg (fun x => x.setup.ownShare) station) (by rw [station]; exact id)

theorem StoreSound.withPending {s : State} (l : List Instr) (h : StoreSound s) : StoreSound (s.withPending l) :=
  h.congr rfl rfl rfl id

/-- Settles O10: inserts and completions add one entry with a new key within the share, all other claims change pins or free cells. -/
theorem storeStaysSound : Obligations.StoreStaysSound := fun _ _ e mode h =>
  step_keeps (P := fun s => ModeSound s ∧ StoreSound s) (fun _ l h => ⟨withPending_mode l h.1, h.2.withPending l⟩)
    (fun _ h => h.2) (fun _ _ _ e h => storeSound_exec e h.1 h.2) e ⟨mode, h⟩

/-! ### Pinned entries -/

/-- An entry with a pin of HANDED or TX has one after it with its key, payload and these pins. -/
def PinnedKept (st st' : Store) : Prop := ∀ e ∈ st.own ++ st.peer, e.pins.handed = true ∨ e.pins.tx = true →
  ∃ e' ∈ st'.own ++ st'.peer, e'.key = e.key ∧ e'.payload = e.payload ∧ (e'.pins.handed = true ∨ e'.pins.tx = true)

theorem PinnedKept.refl (st : Store) : PinnedKept st st := fun e mem pinned => ⟨e, mem, rfl, rfl, pinned⟩

theorem not_isEmpty_of_pinned {p : Pins} (h : p.handed = true ∨ p.tx = true) : p.isEmpty = false := by
  rcases h with h | h <;> simp [Pins.isEmpty, h]

theorem PinnedKept.insert {st : Store} {stn : Station} {share : Nat} {e : Entry} (peer : e.key.origin ≠ stn) :
    PinnedKept st (st.insert stn share e).2 := by
  rcases insert_peer_kept peer (st := st) (share := share) with same | ⟨-, kept, eq, -, keeps⟩
  · rw [same]; exact .refl st
  · rw [eq]
    intro x mem pinned
    refine ⟨x, ?_, rfl, rfl, pinned⟩
    rcases List.mem_append.mp mem with mem | mem
    · exact List.mem_append.mpr (.inl mem)
    · have := keeps x mem (not_isEmpty_of_pinned pinned)
      exact List.mem_append.mpr (.inr (List.mem_append.mpr (.inl this)))

theorem PinnedKept.restartRelease (st : Store) (o : Station) (epoch : Epoch) : PinnedKept st (st.restartRelease o epoch) := by
  intro x mem pinned
  have all : (st.restartRelease o epoch).own ++ (st.restartRelease o epoch).peer =
      (st.own ++ st.peer).map fun e => if e.key.origin = o ∧ e.key.epoch = epoch then
        { e with pins := { e.pins with due := false } } else e := by
    simp [Store.restartRelease]
  rw [all]
  refine ⟨_, List.mem_map_of_mem mem, ?_⟩
  split <;> exact ⟨rfl, rfl, pinned⟩

theorem Heard.pinnedKept {s t : State} (heard : Heard s t) : PinnedKept s.store t.store := by
  induction heard with
  | refl => exact .refl _
  | trans _ _ one two =>
    intro e mem pinned
    obtain ⟨e', mem', key, payload, pinned'⟩ := one e mem pinned
    obtain ⟨e'', mem'', key', payload', pinned''⟩ := two e' mem' pinned'
    exact ⟨e'', mem'', key'.trans key, payload'.trans payload, pinned''⟩
  | other keeps => rw [keeps.store (by decide)]; exact .refl _
  | insert e peer _ _ _ _ store => rw [store]; exact .insert peer
  | withhold o epoch _ _ _ store => rw [store]; exact .restartRelease _ _ _

/-- Settles O24: an insert and a reservation evict unpinned entries alone, and no claim but a reset's takes another away. -/
theorem pinnedEntriesStay : Obligations.PinnedEntriesStay := by
  intro c s t reset e x mem pinned
  have reset : ¬ isReset c = true := by rw [reset]; nofun
  have of_pins {t : State} (pins : PinsOnly s.store t.store) :
      ∃ e' ∈ t.store.own ++ t.store.peer, e'.key = x.key ∧ e'.payload = x.payload := pins.mem mem
  by_cases host : isHostWord c = true
  · obtain ⟨only, -⟩ | ⟨u, cmd, args, st, data, only, -, -, rfl, -⟩ := exec_hostWord_cases host e
    · exact of_pins (by rw [only .store (by decide)]; exact .refl _)
    · refine of_pins ?_
      have before : u.store = s.store := only .store (by decide)
      rw [respond_only _ _ _ .store (by decide), ← before]
      by_cases isSet : cmd = .set
      · subst isSet
        rw [execute_only u .set args .store (by decide)]
        exact .refl _
      · by_cases isJoin : cmd = .join
        · subst isJoin
          rw [execute_only u .join args .store (by decide)]
          exact .refl _
        · exact (execute_claims u args isSet isJoin).pinsOnly
  by_cases turn : isTurn c = true
  · cases c with
    | dataWord w wend =>
      simp only [exec, execDataWord] at e
      split at e
      · exact of_pins (Host.Outcome.next.inj e ▸ .refl _)
      · split at e
        · rw [← Host.Outcome.next.inj e]
          have kept {st : Store} (own : st.own = s.store.own) (peer : st.peer = s.store.peer) (h : (s.takeDataWord w wend).store = st) :
              ∃ e' ∈ (s.takeDataWord w wend).store.own ++ (s.takeDataWord w wend).store.peer,
                e'.key = x.key ∧ e'.payload = x.payload := ⟨x, by rw [h, own, peer]; exact mem, rfl, rfl⟩
          cases takeDataWord_taken s w wend with
          | dropped store => exact kept rfl rfl store
          | between store => exact kept rfl rfl store
          | starts st reserve _ _ store =>
            obtain ⟨-, -, peer, -, keeps⟩ := reserve_kept reserve
            refine ⟨x, ?_, rfl, rfl⟩
            rw [store, peer]
            rcases List.mem_append.mp mem with mem | mem
            · exact List.mem_append.mpr (.inl (keeps x mem (not_isEmpty_of_pinned pinned)))
            · exact List.mem_append.mpr (.inr mem)
          | collects _ store =>
            exact kept (st := s.store.writeReserved (s.submission.bytesOf w)) rfl rfl store
          | awaits _ store =>
            exact kept (st := s.store.writeReserved (s.submission.bytesOf w)) rfl rfl store
          | rejects _ store => exact kept (st := { s.store with reserved := none }) rfl rfl store
          | completes _ _ answer st claim store =>
            rcases complete_cases claim with ⟨-, -, eq⟩ | ⟨-, -, -, eq⟩ | ⟨bytes, -, -, -, eq⟩
            · exact kept (st := st) (by rw [eq]; rfl) (by rw [eq]; rfl) store
            · exact kept (st := st) (by rw [eq]; rfl) (by rw [eq]; rfl) store
            · refine ⟨x, ?_, rfl, rfl⟩
              rw [store, eq]
              rcases List.mem_append.mp mem with mem | mem
              · exact List.mem_append.mpr (.inl (List.mem_append.mpr (.inl mem)))
              · exact List.mem_append.mpr (.inr mem)
        · exact of_pins (Host.Outcome.next.inj e ▸ .refl _)
    | deliveryTurn =>
      simp only [exec, execDeliveryTurn] at e
      split at e
      · split at e
        · exact of_pins (Host.Outcome.next.inj e ▸ serve_pinsOnly _ _)
        · exact of_pins (Host.Outcome.next.inj e ▸ .refl _)
      · exact of_pins (Host.Outcome.next.inj e ▸ .refl _)
    | _ => exact absurd turn Bool.false_ne_true
  · obtain ⟨⟨u, heard, claims⟩, -⟩ := exec_messages e host reset turn
    obtain ⟨e', mem', key, payload, -⟩ := heard.pinnedKept x mem pinned
    obtain ⟨e'', mem'', key', payload'⟩ := claims.pinsOnly.mem mem'
    exact ⟨e'', mem'', key'.trans key, payload'.trans payload⟩

end Sys2Proof.Machine
end

section
/-! The Submission Unit (O14) and the payloads (O18). -/

open Sys2Proof

namespace Sys2Proof.Machine

set_option Elab.async false

/-! ### The Submission Unit -/

/-- Frames of others touch neither the Submission Unit nor the RESERVED cell. -/
theorem Heard.submission {s t : State} (heard : Heard s t) :
    t.submission = s.submission ∧ t.store.reserved = s.store.reserved := by
  induction heard with
  | refl => exact ⟨rfl, rfl⟩
  | trans _ _ one two => exact ⟨two.1.trans one.1, two.2.trans one.2⟩
  | other keeps => exact ⟨keeps.submission (by decide), by rw [keeps.store (by decide)]⟩
  | insert e peer _ _ keeps _ store =>
    refine ⟨keeps.submission (by decide), ?_⟩
    rcases insert_peer_kept peer (st := _) (share := _) with same | ⟨-, kept, eq, -⟩
    · rw [store, same]
    · rw [store, eq]
  | withhold o epoch _ keeps _ store =>
    exact ⟨keeps.submission (by decide), by rw [store]; rfl⟩

/-- The numbers of a queue whose head has gone. -/
theorem consecutive_tail {x : DataDuty} {rest : List DataDuty} {n : SeqNum}
    (h : (x :: rest).map (fun y => y.seq) = (List.range (x :: rest).length).map fun i => n + BitVec.ofNat 16 i) :
    x.seq = n ∧ rest.map (fun y => y.seq) = (List.range rest.length).map fun i => x.seq + 1 + BitVec.ofNat 16 i := by
  rw [List.length_cons, List.range_succ_eq_map] at h
  simp only [List.map_cons, List.map_map, List.cons.injEq] at h
  obtain ⟨head, tail⟩ := h
  have first : x.seq = n := by rw [head]; bv_omega
  refine ⟨first, ?_⟩
  rw [tail, first]
  refine List.map_congr_left fun i _ => ?_
  simp only [Function.comp]
  bv_omega

theorem SubmissionSound.claims {s t : State} (claims : Claims s t) (h : SubmissionSound s) : SubmissionSound t := by
  have of_keeps {s t : State} {bs : List Block} (h : SubmissionSound s) (keeps : Keeps bs s t)
      (reserved : t.store.reserved = s.store.reserved) (out : Block.submission ∉ bs) : SubmissionSound t :=
    h.congr (keeps.submission out) reserved keeps.inside
  have of_store {s t : State} {bs : List Block} (h : SubmissionSound s) (keeps : Keeps bs s t) (store : Block.store ∉ bs)
      (out : Block.submission ∉ bs) : SubmissionSound t := of_keeps h keeps (by rw [keeps.store store]) out
  induction claims with
  | refl => exact h
  | trans _ _ one two => exact two (one h)
  | other keeps => exact of_store h keeps (by decide) (by decide)
  | quit keeps _ _ ih => exact ih (of_store h keeps (by decide) (by decide))
  | makeDuty _ _ _ _ _ _ keeps _ store => exact of_keeps h keeps (by rw [store]; exact (PinsOnly.pinTx _ _).reserved) (by decide)
  | endDuty _ _ _ keeps _ store => exact of_keeps h keeps (by rw [store]; exact (PinsOnly.clearTx _ _).reserved) (by decide)
  | turnDuty _ _ _ _ _ _ _ _ keeps => exact of_store h keeps (by decide) (by decide)
  | ripen _ _ _ _ keeps => exact of_store h keeps (by decide) (by decide)
  | dropRecord r _ _ keeps _ _ store =>
    exact of_keeps h keeps (by rw [store]; exact (PinsOnly.dropRecord _ r).reserved) (by decide)
  | turnHead x y rest queue seq keeps _ submission =>
    obtain ⟨consecutive, nextSeq, room, roomKept, headOnly, setupEmpty, cell⟩ := h
    rw [queue] at consecutive nextSeq room roomKept headOnly setupEmpty
    have store := keeps.store (by decide)
    constructor <;> simp only [submission, store]
    · simpa [seq] using consecutive
    · exact nextSeq
    · exact room
    · exact roomKept
    · exact headOnly
    · exact fun inside => absurd (setupEmpty (keeps.inside inside)) (by simp)
    · exact cell
  | endHead x rest queue keeps _ store submission =>
    obtain ⟨consecutive, nextSeq, room, roomKept, headOnly, setupEmpty, cell⟩ := h
    rw [queue] at consecutive nextSeq room roomKept headOnly setupEmpty
    obtain ⟨head, tail⟩ := consecutive_tail consecutive
    have reserved := (PinsOnly.clearTx _ _).reserved.symm.trans (congrArg Store.reserved store).symm
    constructor <;> simp only [submission, ← reserved]
    · exact tail
    · rw [nextSeq, head, List.length_cons]; bv_omega
    · exact Nat.le_of_succ_le room
    · exact fun taking => Nat.lt_of_succ_lt (roomKept taking)
    · exact fun y mem => headOnly y (List.mem_of_mem_tail mem)
    · exact fun inside => absurd (setupEmpty (keeps.inside inside)) (by simp)
    · exact cell

theorem not_taking {a : AssemblyState} (h : a = .idle ∨ a = .discarding) : ¬ (a = .assembling ∨ a = .awaitingEnd) := by
  rcases h with rfl | rfl <;> simp

theorem SubmissionSound.taken {s t : State} {w : Word} (taken : WordTaken s t w) (station : t.station = s.station)
    (ready : s.wrdy = true) (h : SubmissionSound s) : SubmissionSound t := by
  have inside : t.station.state = .setup → s.station.state = .setup := by rw [station]; exact id
  have cell (bs : List Byte) : (s.store.writeReserved bs).reserved.isSome = s.store.reserved.isSome := by
    simp [Store.writeReserved]
  have on := not_setup_of_wrdy ready
  have off : t.station.state ≠ .setup := by rw [station]; exact on
  obtain ⟨consecutive, nextSeq, room, roomKept, headOnly, setupEmpty, reserved⟩ := h
  cases taken with
  | dropped store submission =>
    exact SubmissionSound.congr ⟨consecutive, nextSeq, room, roomKept, headOnly, setupEmpty, reserved⟩ submission
      (by rw [store]) inside
  | between store before a now submission =>
    constructor <;> simp only [submission, store]
    · exact consecutive
    · exact nextSeq
    · exact room
    · exact fun taking => absurd taking (not_taking now)
    · exact headOnly
    · exact fun x => absurd x off
    · exact iff_of_false (fun x => not_taking before (reserved.mp x)) (not_taking now)
  | starts st reserve before _ store submission =>
    obtain ⟨-, some, -⟩ := reserve_kept reserve
    have free : s.submission.queue.length < Config.dataQueueSize := by
      simp only [State.wrdy, Submission.inProgress, before] at ready
      simpa using (by simpa using ready : _ ∧ _ ∧ _).2.2
    constructor <;> simp only [submission, store]
    · exact consecutive
    · exact nextSeq
    · exact room
    · exact fun _ => free
    · exact headOnly
    · exact fun x => absurd x off
    · simp [some]
  | collects before store _ submission =>
    constructor <;> simp only [submission, store, cell]
    · exact consecutive
    · exact nextSeq
    · exact room
    · exact roomKept
    · exact headOnly
    · exact fun x => absurd x off
    · exact reserved
  | awaits before store _ submission =>
    constructor <;> simp only [submission, store, cell]
    · exact consecutive
    · exact nextSeq
    · exact room
    · exact fun _ => roomKept (.inl before)
    · exact headOnly
    · exact fun x => absurd x off
    · exact iff_of_true (reserved.mpr (.inl before)) (.inr trivial)
  | rejects before store a now n submission =>
    constructor <;> simp only [submission, store]
    · exact consecutive
    · exact nextSeq
    · exact room
    · exact fun taking => absurd taking (not_taking now)
    · exact headOnly
    · exact fun x => absurd x off
    · exact iff_of_false (by simp) (not_taking now)
  | completes before last answer st claim store submission =>
    have kept := roomKept (.inl before)
    have holds := reserved.mpr (.inl before)
    rcases complete_cases claim with ⟨-, none, -⟩ | ⟨rfl, -, -, eq⟩ | ⟨bytes, rfl, -, -, eq⟩
    · have := cell (s.submission.bytesOf w)
      rw [none, holds] at this
      cases this
    · constructor <;> simp only [submission, store, eq]
      · simpa using consecutive
      · simpa using nextSeq
      · simpa using room
      · exact fun taking => absurd taking (by simp)
      · simpa using headOnly
      · exact fun x => absurd x off
      · simp
    · constructor <;> simp only [submission, store, eq, if_true]
      · simp only [List.map_append, consecutive, List.map_cons, List.map_nil, List.length_append, List.length_cons, List.length_nil,
          List.range_succ, nextSeq, Nat.zero_add]
      · rw [nextSeq, List.length_append, List.length_cons, List.length_nil]; bv_omega
      · simpa using kept
      · exact fun taking => absurd taking (by simp)
      · intro x mem
        cases queue : s.submission.queue with
        | nil => rw [queue] at mem; exact absurd mem (by simp)
        | cons y rest =>
          rw [queue] at mem headOnly
          rcases List.mem_append.mp mem with mem | mem
          · exact headOnly x mem
          · rw [List.mem_singleton.mp mem]
      · exact fun x => absurd x off
      · simp

theorem SubmissionSound.heard {s t : State} (heard : Heard s t) (h : SubmissionSound s) : SubmissionSound t :=
  have ⟨submission, reserved⟩ := heard.submission
  h.congr submission reserved (by rw [heard.station]; exact id)

theorem acceptJoin_submission (s : State) : s.acceptJoin.submission =
    if s.station.state = .setup then { s.submission with ownEpoch := s.setup.initialEpoch } else s.submission := by
  unfold State.acceptJoin
  dsimp only
  split <;> rfl

theorem SubmissionSound.join {s : State} (h : SubmissionSound s) : SubmissionSound s.acceptJoin := by
  have submission := acceptJoin_submission s
  have store : s.acceptJoin.store = s.store := acceptJoin_only s .store (by decide)
  have off : s.acceptJoin.station.state ≠ .setup := by rw [acceptJoin_station]; nofun
  obtain ⟨consecutive, nextSeq, room, roomKept, headOnly, setupEmpty, reserved⟩ := h
  split at submission <;> constructor <;> simp only [submission, store]
  all_goals first | assumption | exact fun inside => absurd inside off

theorem SubmissionSound.serve {s : State} (o : Station) (h : SubmissionSound s) : SubmissionSound (s.serve o) :=
  h.congr (serve_only s o .submission (by decide)) (serve_pinsOnly s o).reserved
    (by rw [serve_only s o .station (by decide)]; exact id)

theorem submissionSound_exec {c : Instr} {s t : State} (e : exec c s = .next t) (mode : ModeSound s) (h : SubmissionSound s) :
    SubmissionSound t :=
  exec_keeps e mode (fun _ _ _ heard h => h.heard heard) (fun _ _ claims h => h.claims claims)
    (fun _ _ fresh _ => fresh.submissionSound) (fun _ _ _ _ h => h.congr rfl rfl id) (fun _ _ h => h.join)
    (fun w wend ready => h.taken (takeDataWord_taken s w wend) (takeDataWord_station s w wend) ready)
    (fun o _ _ => h.serve o) h

theorem SubmissionSound.withPending {s : State} (l : List Instr) (h : SubmissionSound s) : SubmissionSound (s.withPending l) :=
  h.congr rfl rfl id

/-- Settles O14: a completed message joins the queue with the next number, an ended one leaves it from the front. -/
theorem submissionStaysSound : Obligations.SubmissionStaysSound := fun _ _ e mode _ h =>
  step_keeps (P := fun s => ModeSound s ∧ SubmissionSound s) (fun _ l h => ⟨withPending_mode l h.1, h.2.withPending l⟩)
    (fun _ h => h.2) (fun _ _ _ e h => submissionSound_exec e h.1 h.2) e ⟨mode, h⟩

/-! ### Payloads -/

/-- The assembly of a message in progress: what has been taken of it is in the RESERVED cell. -/
def Submission.Assembling (u : Submission) (reserved : Option (List Byte)) : Prop :=
  u.asm = .assembling → 1 ≤ u.length ∧ u.length ≤ Config.maxPayload ∧ u.expected = (u.length + 1) / 2 ∧ u.taken < u.expected ∧
    ∀ bytes, reserved = some bytes → bytes.length = 2 * u.taken

theorem payloadsSound_iff (s : State) : PayloadsSound s ↔
    (∀ e ∈ s.store.own ++ s.store.peer, 1 ≤ e.payload.length ∧ e.payload.length ≤ Config.maxPayload) ∧
      s.submission.Assembling s.store.reserved := ⟨fun h => ⟨h.entries, h.assembling⟩, fun h => ⟨h.1, h.2⟩⟩

theorem PayloadsSound.pinsOnly {s t : State} (h : PayloadsSound s) (pins : PinsOnly s.store t.store)
    (assembling : s.submission.Assembling s.store.reserved → t.submission.Assembling t.store.reserved) : PayloadsSound t := by
  refine (payloadsSound_iff t).mpr ⟨fun e mem => ?_, assembling h.assembling⟩
  obtain ⟨e', mem', -, payload⟩ := pins.symm.mem mem
  rw [← payload]
  exact h.entries e' mem'

theorem PayloadsSound.heard {s t : State} (heard : Heard s t) (h : PayloadsSound s) : PayloadsSound t := by
  have ⟨submission, reserved⟩ := heard.submission
  refine (payloadsSound_iff t).mpr ⟨?_, by rw [submission, reserved]; exact h.assembling⟩
  have entries := h.entries
  clear submission reserved h
  induction heard with
  | refl => exact entries
  | trans _ _ one two => exact two (one entries)
  | other keeps => rw [keeps.store (by decide)]; exact entries
  | insert e peer _ size _ _ store =>
    rcases insert_peer_kept peer (st := _) (share := _) with same | ⟨-, kept, eq, sub, -⟩
    · rw [store, same]; exact entries
    · rw [store, eq]
      intro x mem
      rcases List.mem_append.mp mem with mem | mem
      · exact entries x (List.mem_append.mpr (.inl mem))
      · rcases List.mem_append.mp mem with mem | mem
        · exact entries x (List.mem_append.mpr (.inr (sub.subset mem)))
        · rw [List.mem_singleton.mp mem]; exact size
  | withhold o epoch _ _ _ store =>
    intro x mem
    rw [store] at mem
    obtain ⟨x', mem', -, payload⟩ := (PinsOnly.restartRelease _ o epoch).symm.mem mem
    rw [← payload]
    exact entries x' mem'

/-- The part's own claims leave the assembly of a message alone. -/
theorem Claims.assembling {s t : State} (claims : Claims s t) (reserved : Option (List Byte)) :
    s.submission.Assembling reserved → t.submission.Assembling reserved := by
  have same {s t : State} {bs : List Block} (keeps : Keeps bs s t) (out : Block.submission ∉ bs) :
      s.submission.Assembling reserved → t.submission.Assembling reserved := by rw [keeps.submission out]; exact id
  induction claims with
  | refl => exact id
  | trans _ _ one two => exact two ∘ one
  | other keeps => exact same keeps (by decide)
  | quit keeps _ _ ih => exact ih ∘ same keeps (by decide)
  | makeDuty _ _ _ _ _ _ keeps => exact same keeps (by decide)
  | endDuty _ _ _ keeps => exact same keeps (by decide)
  | turnDuty _ _ _ _ _ _ _ _ keeps => exact same keeps (by decide)
  | ripen _ _ _ _ keeps => exact same keeps (by decide)
  | dropRecord _ _ _ keeps => exact same keeps (by decide)
  | turnHead _ _ _ _ _ _ _ submission => rw [submission]; exact id
  | endHead _ _ _ _ _ _ submission => rw [submission]; exact id

theorem PayloadsSound.claims {s t : State} (claims : Claims s t) (h : PayloadsSound s) : PayloadsSound t :=
  h.pinsOnly claims.pinsOnly fun a => claims.pinsOnly.reserved ▸ claims.assembling _ a

/-- The bytes of a payload word: two, but one of the last word of an odd length (R114). -/
theorem bytesOf_length (u : Submission) (w : Word) :
    (u.bytesOf w).length = if u.taken + 1 = u.expected ∧ u.length % 2 = 1 then 1 else 2 := by
  unfold Submission.bytesOf
  split <;> rfl

theorem PayloadsSound.taken {s t : State} {w : Word} (taken : WordTaken s t w) (h : PayloadsSound s) : PayloadsSound t := by
  have entries := h.entries
  have assembling := h.assembling
  rw [payloadsSound_iff]
  have written {bytes : List Byte} (eq : (s.store.writeReserved (s.submission.bytesOf w)).reserved = some bytes) :
      ∃ old, s.store.reserved = some old ∧ bytes.length = old.length + (s.submission.bytesOf w).length := by
    obtain ⟨old, some, rfl⟩ := Option.map_eq_some_iff.mp eq
    exact ⟨old, some, List.length_append⟩
  cases taken with
  | dropped store submission => rw [store, submission]; exact ⟨entries, assembling⟩
  | between store _ a now submission =>
    refine ⟨by rw [store]; exact entries, ?_⟩
    rw [submission]
    exact fun taking => absurd (Or.inl taking) (not_taking now)
  | starts st reserve _ range store submission =>
    obtain ⟨-, some, peer, sub, -⟩ := reserve_kept reserve
    refine ⟨?_, ?_⟩
    · rw [store, peer]
      exact fun x mem => entries x (List.mem_append.mpr ((List.mem_append.mp mem).imp (sub.subset ·) id))
    · rw [store, submission, some]
      intro _
      exact ⟨range.1, range.2, rfl, by dsimp only; omega, fun bytes eq => by cases eq; rfl⟩
  | collects before store more submission =>
    obtain ⟨low, high, expected, -, size⟩ := assembling before
    refine ⟨by rw [store]; exact entries, ?_⟩
    rw [store, submission]
    refine fun _ => ⟨low, high, expected, more, fun bytes eq => ?_⟩
    obtain ⟨old, some, length⟩ := written eq
    rw [length, size old some, bytesOf_length, if_neg (by omega)]
    dsimp only
    omega
  | awaits _ store _ submission => exact ⟨by rw [store]; exact entries, by rw [submission]; nofun⟩
  | rejects _ store a now n submission =>
    refine ⟨by rw [store]; exact entries, ?_⟩
    rw [submission]
    exact fun taking => absurd (Or.inl taking) (not_taking now)
  | completes before last answer st claim store submission =>
    obtain ⟨low, high, expected, few, size⟩ := assembling before
    refine ⟨?_, by rw [submission]; nofun⟩
    rw [store]
    rcases complete_cases claim with ⟨-, -, eq⟩ | ⟨-, -, -, eq⟩ | ⟨bytes, -, some, -, eq⟩
    · rw [eq]; exact entries
    · rw [eq]; exact entries
    · rw [eq]
      intro x mem
      have new : 1 ≤ bytes.length ∧ bytes.length ≤ Config.maxPayload := by
        obtain ⟨old, some, length⟩ := written some
        rw [length, size old some, bytesOf_length]
        split <;> omega
      rcases List.mem_append.mp mem with mem | mem
      · rcases List.mem_append.mp mem with mem | mem
        · exact entries x (List.mem_append.mpr (.inl mem))
        · rw [List.mem_singleton.mp mem]; exact new
      · exact entries x (List.mem_append.mpr (.inr mem))

theorem payloadsSound_exec {c : Instr} {s t : State} (e : exec c s = .next t) (mode : ModeSound s) (h : PayloadsSound s) :
    PayloadsSound t := by
  refine exec_keeps e mode (fun _ _ _ heard h => h.heard heard) (fun _ _ claims h => h.claims claims)
    (fun _ _ fresh _ => fresh.payloadsSound) (fun _ _ _ _ h => ⟨h.entries, h.assembling⟩) (fun s _ h => ?_)
    (fun w wend _ => h.taken (takeDataWord_taken s w wend)) (fun o _ _ => ?_) h
  · have store : s.acceptJoin.store = s.store := acceptJoin_only s .store (by decide)
    refine h.pinsOnly (by rw [store]; exact .refl _) fun a => ?_
    rw [store, acceptJoin_submission]
    split <;> exact a
  · have submission : (s.serve o).submission = s.submission := serve_only s o .submission (by decide)
    exact h.pinsOnly (serve_pinsOnly s o) fun a => by rw [submission, (serve_pinsOnly s o).reserved]; exact a

/-- Settles O18: frames carry 1 to 120 bytes, and the bytes of a message are those of the words its length asks for. -/
theorem payloadsStaySound : Obligations.PayloadsStaySound := fun _ _ e mode _ h =>
  step_keeps (P := fun s => ModeSound s ∧ PayloadsSound s)
    (fun _ l h => ⟨withPending_mode l h.1, h.2.pinsOnly (.refl _) id⟩)
    (fun _ h => h.2) (fun _ _ _ e h => payloadsSound_exec e h.1 h.2) e ⟨mode, h⟩

end Sys2Proof.Machine
end

section
/-! Pins by key, and the duties: each one's entry is present with TX (O15). -/

open Sys2Proof

namespace Sys2Proof.Machine

set_option Elab.async false

/-! ### Pins by key -/

/-- An entry of key `k` has pins that `p` accepts. -/
def Store.carries (st : Store) (p : Pins → Bool) (k : Key) : Prop := ∃ e ∈ st.own ++ st.peer, e.key = k ∧ p e.pins = true

theorem Store.heldWithTx_iff (st : Store) (k : Key) : st.heldWithTx k ↔ st.carries (fun q => q.tx) k := Iff.rfl

theorem Store.mapEntries_all (st : Store) (f : Entry → Entry) :
    (st.mapEntries f).own ++ (st.mapEntries f).peer = (st.own ++ st.peer).map f := by simp

namespace Store.carries

variable {st : Store} {p : Pins → Bool} {k : Key}

theorem mapPins (h : st.carries p k) (j : Key) (f : Pins → Pins) (keep : k = j → ∀ q, p q = true → p (f q) = true) :
    (st.mapPins j f).carries p k := by
  obtain ⟨e, mem, rfl, pin⟩ := h
  unfold Store.carries
  rw [Store.mapPins, Store.mapEntries_all]
  refine ⟨_, List.mem_map_of_mem mem, ?_⟩
  split
  · rename_i eq
    exact ⟨rfl, keep eq _ pin⟩
  · exact ⟨rfl, pin⟩

theorem pinTx (h : st.carries p k) (j : Key) (keep : ∀ q, p q = true → p { q with tx := true } = true) :
    (st.pinTx j).2.carries p k := by
  rcases st.pinTx_cases j with eq | eq | eq <;> rw [eq]
  · exact h
  · exact h
  · exact h.mapPins j _ fun _ => keep

theorem hand (h : st.carries p k) (j : Key)
    (keep : k = j → ∀ q, p q = true → p { q with due := false, handed := true } = true) : (st.hand j).2.carries p k := by
  rcases st.hand_cases j with eq | eq | eq <;> rw [eq]
  · exact h
  · exact h
  · exact h.mapPins j _ keep

theorem clearPin (h : st.carries p k) (j : Key) (carried : Pins → Bool) (remove : Pins → Pins)
    (keep : k = j → ∀ q, p q = true → p (remove q) = true) : (st.clearPin j carried remove).2.carries p k := by
  rcases st.clearPin_cases j carried remove with eq | eq | eq <;> rw [eq]
  · exact h
  · exact h
  · exact h.mapPins j _ keep

theorem clearTx (h : st.carries p k) (j : Key) (keep : k = j → ∀ q, p q = true → p { q with tx := false } = true) :
    (st.clearTx j).2.carries p k := h.clearPin j _ _ keep

theorem clearHanded (h : st.carries p k) (j : Key)
    (keep : k = j → ∀ q, p q = true → p { q with handed := false } = true) : (st.clearHanded j).2.carries p k :=
  h.clearPin j _ _ keep

theorem restartRelease (h : st.carries p k) (o : Station) (epoch : Epoch)
    (keep : ∀ q, p q = true → p { q with due := false } = true) : (st.restartRelease o epoch).carries p k := by
  obtain ⟨e, mem, rfl, pin⟩ := h
  unfold Store.carries
  rw [Store.restartRelease, Store.mapEntries_all]
  refine ⟨_, List.mem_map_of_mem mem, ?_⟩
  split
  · exact ⟨rfl, keep _ pin⟩
  · exact ⟨rfl, pin⟩

theorem insert (h : st.carries p k) {stn : Station} {share : Nat} {e : Entry} (peer : e.key.origin ≠ stn)
    (pinned : ∀ q, p q = true → q.isEmpty = false) : (st.insert stn share e).2.carries p k := by
  obtain ⟨x, mem, key, pin⟩ := h
  rcases insert_peer_kept peer (st := st) (share := share) with same | ⟨-, kept, eq, -, keeps⟩
  · exact ⟨x, by rw [same]; exact mem, key, pin⟩
  · refine ⟨x, ?_, key, pin⟩
    rw [eq]
    rcases List.mem_append.mp mem with mem | mem
    · exact List.mem_append.mpr (.inl mem)
    · exact List.mem_append.mpr (.inr (List.mem_append.mpr (.inl (keeps x mem (pinned _ pin)))))

theorem reserve (h : st.carries p k) {share : Nat} {st' : Store} (reserve : st.reserve share = some st')
    (pinned : ∀ q, p q = true → q.isEmpty = false) : st'.carries p k := by
  obtain ⟨x, mem, key, pin⟩ := h
  obtain ⟨-, -, peer, -, keeps⟩ := reserve_kept reserve
  refine ⟨x, ?_, key, pin⟩
  rw [peer]
  exact List.mem_append.mpr ((List.mem_append.mp mem).imp (fun mem => keeps x mem (pinned _ pin)) id)

theorem afterDrop (h : st.carries p k) (r : Record)
    (keep : ∀ q, p q = true → p { q with handed := false } = true) : (st.afterDrop r).carries p k := by
  cases r with
  | message j => exact h.clearHanded j fun _ => keep
  | lost => exact h
  | restart => exact h

end Store.carries

/-- A key pinned by the conditional TX pin was held without TX and is held with it (R15). -/
theorem Store.pinTx_pinned {st : Store} {k : Key} (keys : ((st.own ++ st.peer).map fun e => e.key).Nodup)
    (pinned : (st.pinTx k).1 = .pinned) : ¬ st.carries (fun q => q.tx) k ∧ (st.pinTx k).2.carries (fun q => q.tx) k := by
  unfold Store.pinTx at pinned ⊢
  cases found : st.find k with
  | none => rw [found] at pinned; cases pinned
  | some e =>
    rw [found] at pinned
    dsimp only at pinned ⊢
    split at pinned
    · cases pinned
    · rename_i without
      obtain ⟨mem, key⟩ := Store.find_eq_some found
      refine ⟨?_, ?_⟩
      · rintro ⟨x, memx, keyx, tx⟩
        have := Store.find_of_mem keys memx
        rw [keyx, found] at this
        cases this
        exact without tx
      · rw [if_neg without]
        unfold Store.carries
        rw [Store.mapPins, Store.mapEntries_all]
        exact ⟨_, List.mem_map_of_mem mem, by simp [key]⟩

/-! ### The duties -/

/-- What the duties and the DATA duty queue keep of DutiesSound whatever the station state. -/
structure DutiesCore (s : State) : Prop where
  timers : ∀ (d : Fin 16) (x : Duty), s.duty d = some x → (x.timer.isSome = true ↔ x.state = .delay)
  eligibleNodup : s.duties.eligible.Nodup
  eligible : ∀ d : Fin 16, d ∈ s.duties.eligible ↔ ∃ x, s.duty d = some x ∧ x.state ≠ .delay
  single : ∀ (d e : Fin 16) (x y : Duty), s.duty d = some x → s.duty e = some y → x.key = y.key → d = e
  pinned : ∀ (d : Fin 16) (x : Duty), s.duty d = some x → s.store.carries (fun q => q.tx) x.key
  queuePinned : ∀ x ∈ s.submission.queue, s.store.carries (fun q => q.tx) (s.ownKey x.seq)
  apart : ∀ (d : Fin 16) (x : Duty), s.duty d = some x → ∀ y ∈ s.submission.queue, x.key ≠ s.ownKey y.seq

theorem DutiesSound.core {s : State} (h : DutiesSound s) : DutiesCore s :=
  ⟨h.timers, h.eligibleNodup, h.eligible, h.single, h.pinned, h.queuePinned, h.apart⟩

theorem DutiesCore.sound {s : State} (h : DutiesCore s) (none : s.station.state ≠ .active → ∀ d, s.duty d = none) :
    DutiesSound s :=
  ⟨h.timers, h.eligibleNodup, h.eligible, h.single, h.pinned, h.queuePinned, h.apart, none⟩

theorem ownKey_congr {s t : State} (stn : t.stn = s.stn) (epoch : t.submission.ownEpoch = s.submission.ownEpoch) (n : SeqNum) :
    t.ownKey n = s.ownKey n := by rw [State.ownKey, State.ownKey, stn, epoch]

theorem ownKey_inj {s : State} {m n : SeqNum} (h : s.ownKey m = s.ownKey n) : m = n := congrArg Key.seq h

/-- Duties and the queue's keys stand, and no entry of theirs loses TX. -/
theorem DutiesCore.same {s t : State} (h : DutiesCore s) (duties : t.duties = s.duties)
    (queue : t.submission.queue.map (fun x => x.seq) = s.submission.queue.map fun x => x.seq)
    (ownKey : ∀ n, t.ownKey n = s.ownKey n)
    (tx : ∀ k, s.store.carries (fun q => q.tx) k → t.store.carries (fun q => q.tx) k) : DutiesCore t := by
  have duty : ∀ d, t.duty d = s.duty d := State.duty_congr (congrArg _ duties)
  have old {x : DataDuty} (mem : x ∈ t.submission.queue) : ∃ y ∈ s.submission.queue, y.seq = x.seq :=
    mem_of_map_eq queue.symm mem
  constructor
  · simpa only [duty] using h.timers
  · rw [duties]; exact h.eligibleNodup
  · simpa only [duty, duties] using h.eligible
  · simpa only [duty] using h.single
  · simp only [duty]; exact fun d x there => tx _ (h.pinned d x there)
  · intro x mem
    obtain ⟨y, mem', seq⟩ := old mem
    rw [ownKey, ← seq]
    exact tx _ (h.queuePinned y mem')
  · intro d x there y mem
    obtain ⟨z, mem', seq⟩ := old mem
    rw [ownKey, ← seq]
    exact h.apart d x (duty d ▸ there) z mem'

theorem DutiesCore.keeps {s t : State} {bs : List Block} (h : DutiesCore s) (keeps : Keeps bs s t)
    (out : Block.duties ∉ bs ∧ Block.submission ∉ bs)
    (tx : ∀ k, s.store.carries (fun q => q.tx) k → t.store.carries (fun q => q.tx) k) : DutiesCore t :=
  h.same (keeps.duties out.1) (by rw [keeps.submission out.2])
    (ownKey_congr keeps.stn (by rw [keeps.submission out.2])) tx

theorem DutiesCore.makeDuty {s t : State} (h : DutiesCore s) (keys : ((s.store.own ++ s.store.peer).map fun e => e.key).Nodup)
    (d : Fin 16) (k : Key) (delay : Nat) (free : s.duty d = none) (pinned : (s.store.pinTx k).1 = .pinned)
    (keeps : Keeps [.store, .duties] s t) (store : t.store = (s.store.pinTx k).2)
    (duty : ∀ e, t.duty e = if e = d then some (madeDuty k delay) else s.duty e)
    (eligible : t.duties.eligible = if delay = 0 then s.duties.eligible ++ [d] else s.duties.eligible) : DutiesCore t := by
  have submission := keeps.submission (by decide)
  have ownKey := ownKey_congr keeps.stn (congrArg Submission.ownEpoch submission)
  obtain ⟨without, now⟩ := Store.pinTx_pinned keys pinned
  have tx {j : Key} (held : s.store.carries (fun q => q.tx) j) : t.store.carries (fun q => q.tx) j := by
    rw [store]; exact held.pinTx k fun _ _ => rfl
  have out : d ∉ s.duties.eligible := fun mem => by
    obtain ⟨x, there, -⟩ := (h.eligible d).mp mem
    rw [free] at there
    cases there
  have madeKey : (madeDuty k delay).key = k := by unfold madeDuty; split <;> rfl
  have cases_ {e : Fin 16} {x : Duty} (there : t.duty e = some x) :
      e = d ∧ x = madeDuty k delay ∨ e ≠ d ∧ s.duty e = some x := by
    rw [duty] at there
    split at there
    · exact .inl ⟨‹_›, (Option.some.inj there).symm⟩
    · exact .inr ⟨‹_›, there⟩
  have other {e : Fin 16} {x : Duty} (there : s.duty e = some x) : x.key ≠ k := fun eq =>
    without (eq ▸ h.pinned e x there)
  constructor
  · intro e x there
    obtain ⟨-, rfl⟩ | ⟨-, there⟩ := cases_ there
    · unfold madeDuty; split <;> simp
    · exact h.timers e x there
  · rw [eligible]
    split
    · exact List.nodup_append.mpr ⟨h.eligibleNodup, by simp, fun e mem f one => by
        rw [List.mem_singleton.mp one]
        exact fun eq => out (eq ▸ mem)⟩
    · exact h.eligibleNodup
  · intro e
    have old := h.eligible e
    rw [eligible, duty]
    by_cases eq : e = d
    · subst eq
      rw [if_pos rfl]
      by_cases zero : delay = 0 <;> simp [madeDuty, zero, out]
    · rw [if_neg eq, ← old]
      by_cases zero : delay = 0 <;> simp [zero, eq]
  · intro e f x y there there' same
    obtain ⟨rfl, rfl⟩ | ⟨-, there⟩ := cases_ there
    · obtain ⟨rfl, -⟩ | ⟨-, there'⟩ := cases_ there'
      · rfl
      · exact absurd (same.symm.trans madeKey) (other there')
    · obtain ⟨rfl, rfl⟩ | ⟨-, there'⟩ := cases_ there'
      · exact absurd (same.trans madeKey) (other there)
      · exact h.single e f x y there there' same
  · intro e x there
    obtain ⟨-, rfl⟩ | ⟨-, there⟩ := cases_ there
    · rw [madeKey, store]; exact now
    · exact tx (h.pinned e x there)
  · rw [submission]
    intro x mem
    rw [ownKey]
    exact tx (h.queuePinned x mem)
  · rw [submission]
    intro e x there y mem
    rw [ownKey]
    obtain ⟨-, rfl⟩ | ⟨-, there⟩ := cases_ there
    · rw [madeKey]
      exact fun eq => without (eq ▸ h.queuePinned y mem)
    · exact h.apart e x there y mem

theorem DutiesCore.endDuty {s t : State} (h : DutiesCore s) (d : Fin 16) (x : Duty) (there : s.duty d = some x)
    (keeps : Keeps [.store, .duties] s t) (store : t.store = (s.store.clearTx x.key).2)
    (duty : ∀ e, t.duty e = if e = d then none else s.duty e)
    (eligible : t.duties.eligible = s.duties.eligible.filter fun e => e != d) : DutiesCore t := by
  have submission := keeps.submission (by decide)
  have ownKey := ownKey_congr keeps.stn (congrArg Submission.ownEpoch submission)
  have tx {j : Key} (held : s.store.carries (fun q => q.tx) j) (other : j ≠ x.key) : t.store.carries (fun q => q.tx) j := by
    rw [store]; exact held.clearTx x.key fun eq => absurd eq other
  have left {e : Fin 16} {y : Duty} (now : t.duty e = some y) : e ≠ d ∧ s.duty e = some y := by
    rw [duty] at now
    split at now
    · cases now
    · exact ⟨‹_›, now⟩
  constructor
  · exact fun e y now => h.timers e y (left now).2
  · rw [eligible]; exact h.eligibleNodup.filter _
  · intro e
    rw [eligible, List.mem_filter, h.eligible e, duty]
    by_cases eq : e = d <;> simp [eq]
  · exact fun e f y z now now' => h.single e f y z (left now).2 (left now').2
  · intro e y now
    obtain ⟨other, was⟩ := left now
    exact tx (h.pinned e y was) fun eq => other (h.single e d y x was there eq)
  · rw [submission]
    intro y mem
    rw [ownKey]
    exact tx (h.queuePinned y mem) fun eq => h.apart d x there y mem eq.symm
  · rw [submission]
    intro e y now z mem
    rw [ownKey]
    exact h.apart e y (left now).2 z mem

/-- A duty keeps its key while its state changes; it joins the eligible order when it leaves DELAY. -/
theorem DutiesCore.changeDuty {s t : State} (h : DutiesCore s) (d : Fin 16) (x y : Duty) (there : s.duty d = some x)
    (key : y.key = x.key) (timer : y.timer.isSome = true ↔ y.state = .delay) (now : y.state ≠ .delay)
    (keeps : Keeps [.duties] s t) (duty : ∀ e, t.duty e = if e = d then some y else s.duty e)
    (nodup : t.duties.eligible.Nodup) (mem : ∀ e, e ∈ t.duties.eligible ↔ e = d ∨ e ∈ s.duties.eligible) : DutiesCore t := by
  have submission := keeps.submission (by decide)
  have ownKey := ownKey_congr keeps.stn (congrArg Submission.ownEpoch submission)
  have store := keeps.store (by decide)
  have was {e : Fin 16} {z : Duty} (now : t.duty e = some z) : ∃ z', s.duty e = some z' ∧ z'.key = z.key := by
    rw [duty] at now
    split at now
    · rename_i eq
      cases now
      exact ⟨x, eq ▸ there, key.symm⟩
    · exact ⟨z, now, rfl⟩
  constructor
  · intro e z now
    rw [duty] at now
    split at now
    · cases now; exact timer
    · exact h.timers e z now
  · exact nodup
  · intro e
    rw [mem, duty, h.eligible e]
    by_cases eq : e = d <;> simp [eq, now]
  · intro e f z w here here' same
    obtain ⟨z', old, key⟩ := was here
    obtain ⟨w', old', key'⟩ := was here'
    exact h.single e f z' w' old old' (key.trans (same.trans key'.symm))
  · intro e z here
    obtain ⟨z', old, key⟩ := was here
    rw [store, ← key]
    exact h.pinned e z' old
  · rw [submission, store]
    intro z inQueue
    rw [ownKey]
    exact h.queuePinned z inQueue
  · rw [submission]
    intro e z here w inQueue
    obtain ⟨z', old, key⟩ := was here
    rw [ownKey, ← key]
    exact h.apart e z' old w inQueue

/-- The queue's numbers are different ones. -/
theorem SubmissionSound.nodup {s : State} (h : SubmissionSound s) : (s.submission.queue.map fun x => x.seq).Nodup := by
  rw [h.consecutive]
  refine (List.nodup_range).map_on fun i hi j hj eq => ?_
  have room := h.room
  simp only [List.mem_range, Config.dataQueueSize] at hi hj room
  have := congrArg BitVec.toNat eq
  simp only [BitVec.toNat_add, BitVec.toNat_ofNat] at this
  omega

theorem DutiesCore.endHead {s t : State} (h : DutiesCore s) (nodup : (s.submission.queue.map fun x => x.seq).Nodup)
    (x : DataDuty) (rest : List DataDuty) (queue : s.submission.queue = x :: rest)
    (keeps : Keeps [.store, .submission, .contexts] s t) (store : t.store = (s.store.clearTx (s.ownKey x.seq)).2)
    (submission : t.submission = { s.submission with queue := rest, nextUntx := x.seq + 1 }) : DutiesCore t := by
  have ownKey := ownKey_congr keeps.stn (t := t) (s := s) (by rw [submission])
  have duties := keeps.duties (by decide)
  have duty : ∀ d, t.duty d = s.duty d := State.duty_congr (congrArg _ duties)
  have tx {j : Key} (held : s.store.carries (fun q => q.tx) j) (other : j ≠ s.ownKey x.seq) :
      t.store.carries (fun q => q.tx) j := by
    rw [store]; exact held.clearTx _ fun eq => absurd eq other
  have inQueue {y : DataDuty} (mem : y ∈ rest) : y ∈ s.submission.queue := by rw [queue]; exact .tail _ mem
  have newQueue : t.submission.queue = rest := by rw [submission]
  rw [queue, List.map_cons, List.nodup_cons] at nodup
  constructor
  · simpa only [duty] using h.timers
  · rw [duties]; exact h.eligibleNodup
  · simpa only [duty, duties] using h.eligible
  · simpa only [duty] using h.single
  · intro d y there
    rw [duty] at there
    exact tx (h.pinned d y there) (h.apart d y there x (by simp [queue]))
  · intro y mem
    rw [newQueue] at mem
    rw [ownKey]
    refine tx (h.queuePinned y (inQueue mem)) fun eq => nodup.1 ?_
    exact ownKey_inj eq ▸ List.mem_map_of_mem mem
  · intro d y there z mem
    rw [newQueue] at mem
    rw [ownKey]
    exact h.apart d y (duty d ▸ there) z (inQueue mem)

theorem DutiesCore.claims {s t : State} (claims : Claims s t) (store : StoreSound s) (submission : SubmissionSound s)
    (h : DutiesCore s) : DutiesCore t := by
  induction claims with
  | refl => exact h
  | trans one _ first second => exact second (store.claims one) (submission.claims one) (first store submission h)
  | other keeps => exact h.keeps keeps (by decide) fun k held => by rw [keeps.store (by decide)]; exact held
  | quit keeps _ _ ih =>
    exact ih (store.keeps keeps (keeps.store (by decide) ▸ .refl _)) (submission.congr (keeps.submission (by decide))
        (by rw [keeps.store (by decide)]) keeps.inside)
      (h.keeps keeps (by decide) fun k held => by rw [keeps.store (by decide)]; exact held)
  | makeDuty d k delay _ free pinned keeps _ now duty eligible =>
    exact h.makeDuty store.keys d k delay free pinned keeps now duty eligible
  | endDuty d x there keeps _ now duty eligible => exact h.endDuty d x there keeps now duty eligible
  | turnDuty d x y there before now key timer keeps _ duty eligible =>
    have mem := (h.eligible d).mpr ⟨x, there, before⟩
    refine h.changeDuty d x y there key ?_ now keeps duty (eligible ▸ h.eligibleNodup) fun e => ?_
    · rw [timer, h.timers d x there]
      exact iff_of_false before now
    · rw [eligible]
      exact ⟨.inr, fun h => h.elim (· ▸ mem) id⟩
  | @ripen _ t d x there delays keeps _ duty eligible =>
    refine h.changeDuty d x { x with state := .eligible, timer := none } there rfl (by simp) (by simp) keeps duty ?_ fun e => ?_
    · rw [eligible]
      refine List.nodup_append.mpr ⟨h.eligibleNodup, by simp, fun e mem f one => ?_⟩
      rw [List.mem_singleton.mp one]
      rintro rfl
      obtain ⟨y, there', not⟩ := (h.eligible e).mp mem
      rw [there] at there'
      cases there'
      exact not delays
    · rw [eligible, List.mem_append, List.mem_singleton, or_comm]
  | dropRecord r _ _ keeps _ _ now =>
    exact h.keeps keeps (by decide) fun k held => by rw [now]; exact held.afterDrop r fun _ tx => tx
  | turnHead x y rest queue seq keeps _ now =>
    refine h.same (keeps.duties (by decide)) ?_ (ownKey_congr keeps.stn (by rw [now])) fun k held => ?_
    · rw [now, queue]; simp [seq]
    · rw [keeps.store (by decide)]; exact held
  | endHead x rest queue keeps _ now after =>
    exact h.endHead submission.nodup x rest queue keeps now after

theorem DutiesCore.heard {s t : State} (heard : Heard s t) (h : DutiesCore s) : DutiesCore t := by
  have empty (q : Pins) (tx : q.tx = true) : q.isEmpty = false := not_isEmpty_of_pinned (.inr tx)
  induction heard with
  | refl => exact h
  | trans _ _ one two => exact two (one h)
  | other keeps => exact h.keeps keeps (by decide) fun k held => by rw [keeps.store (by decide)]; exact held
  | insert e peer _ _ keeps _ store => exact h.keeps keeps (by decide) fun k held => by rw [store]; exact held.insert peer empty
  | withhold o epoch _ keeps _ store =>
    exact h.keeps keeps (by decide) fun k held => by rw [store]; exact held.restartRelease _ _ fun _ tx => tx

theorem Heard.duties {s t : State} (heard : Heard s t) : t.duties = s.duties := by
  induction heard with
  | refl => rfl
  | trans _ _ one two => exact two.trans one
  | other keeps => exact keeps.duties (by decide)
  | insert _ _ _ _ keeps => exact keeps.duties (by decide)
  | withhold _ _ _ keeps => exact keeps.duties (by decide)

/-- A data word keeps the entries that carry TX, and one that completes a message adds one. -/
theorem WordTaken.carries {s t : State} {w : Word} (taken : WordTaken s t w) {p : Pins → Bool}
    (pinned : ∀ q, p q = true → q.isEmpty = false) {k : Key} (h : s.store.carries p k) : t.store.carries p k := by
  have kept {st : Store} (eq : t.store = st) (own : st.own = s.store.own) (peer : st.peer = s.store.peer) :
      t.store.carries p k := by
    rw [eq, Store.carries, own, peer]; exact h
  cases taken with
  | dropped store => exact kept store rfl rfl
  | between store => exact kept store rfl rfl
  | starts st reserve _ _ store => rw [store]; exact h.reserve reserve pinned
  | collects _ store => exact kept store rfl rfl
  | awaits _ store => exact kept store rfl rfl
  | rejects _ store => exact kept store rfl rfl
  | completes _ _ answer st claim store =>
    rcases complete_cases claim with ⟨-, -, eq⟩ | ⟨-, -, -, eq⟩ | ⟨bytes, -, -, -, eq⟩
    · exact kept store (by rw [eq]; rfl) (by rw [eq]; rfl)
    · exact kept store (by rw [eq]; rfl) (by rw [eq]; rfl)
    · obtain ⟨x, mem, key, pin⟩ := h
      refine ⟨x, ?_, key, pin⟩
      rw [store, eq]
      exact List.mem_append.mpr ((List.mem_append.mp mem).imp (List.mem_append.mpr <| .inl ·) id)

theorem DutiesCore.taken {s t : State} {w : Word} (taken : WordTaken s t w) (duties : t.duties = s.duties)
    (stn : t.stn = s.stn) (h : DutiesCore s) : DutiesCore t := by
  have empty (q : Pins) (tx : q.tx = true) : q.isEmpty = false := not_isEmpty_of_pinned (.inr tx)
  have tx (k : Key) := taken.carries empty (k := k)
  cases taken with
  | dropped _ submission => exact h.same duties (by rw [submission]) (ownKey_congr stn (by rw [submission])) tx
  | between _ _ _ _ submission => exact h.same duties (by rw [submission]) (ownKey_congr stn (by rw [submission])) tx
  | starts _ _ _ _ _ submission => exact h.same duties (by rw [submission]) (ownKey_congr stn (by rw [submission])) tx
  | collects _ _ _ submission => exact h.same duties (by rw [submission]) (ownKey_congr stn (by rw [submission])) tx
  | awaits _ _ _ submission => exact h.same duties (by rw [submission]) (ownKey_congr stn (by rw [submission])) tx
  | rejects _ _ _ _ _ submission => exact h.same duties (by rw [submission]) (ownKey_congr stn (by rw [submission])) tx
  | completes _ _ answer st claim store submission =>
    have ownKey := ownKey_congr stn (t := t) (s := s) (by rw [submission])
    rcases complete_cases claim with ⟨rfl, -, -⟩ | ⟨rfl, -, -, -⟩ | ⟨bytes, rfl, -, absent, eq⟩
    · exact h.same duties (by rw [submission]; rfl) ownKey tx
    · exact h.same duties (by rw [submission]; rfl) ownKey tx
    · have duty : ∀ d, t.duty d = s.duty d := State.duty_congr (congrArg _ duties)
      have queue : t.submission.queue = s.submission.queue ++ [⟨s.submission.nextSeq, 0, .waiting⟩] := by
        rw [submission]; rfl
      have new : t.store.carries (fun q => q.tx) s.nextKey :=
        ⟨⟨s.nextKey, bytes, s.completionPins⟩, by rw [store, eq]; simp, rfl, rfl⟩
      have absent {k : Key} (held : s.store.carries (fun q => q.tx) k) : k ≠ s.nextKey := by
        rintro rfl
        obtain ⟨x, mem, key, -⟩ := held
        exact Bool.false_ne_true (absent.symm.trans (Store.present_iff.mpr ⟨x, mem, key⟩))
      constructor
      · simpa only [duty] using h.timers
      · rw [duties]; exact h.eligibleNodup
      · simpa only [duty, duties] using h.eligible
      · simpa only [duty] using h.single
      · simp only [duty]; exact fun d x there => tx _ (h.pinned d x there)
      · rw [queue]
        intro x mem
        rw [ownKey]
        rcases List.mem_append.mp mem with mem | mem
        · exact tx _ (h.queuePinned x mem)
        · rw [List.mem_singleton.mp mem]; exact new
      · rw [queue]
        intro d x there y mem
        rw [duty] at there
        rw [ownKey]
        rcases List.mem_append.mp mem with mem | mem
        · exact h.apart d x there y mem
        · rw [List.mem_singleton.mp mem]; exact absent (h.pinned d x there)

/-- A turn of the Delivery Engine leaves the TX pins. -/
theorem serve_tx (s : State) (o : Station) {k : Key} (h : s.store.carries (fun q => q.tx) k) :
    (s.serve o).store.carries (fun q => q.tx) k := by
  unfold State.serve
  dsimp only
  split
  · refine (advance_only _ _ _ .store (by decide)).symm ▸ ?_
    exact (applyStore_store (s.withDelivery _) _).symm ▸ h.hand _ fun _ _ tx => tx
  · exact (advance_only _ _ _ .store (by decide)).symm ▸ h
  · exact h
  · exact h

/-! ### No duty outside ACTIVE -/

/-- Duties are made in ACTIVE alone and dropped when it is left (R76, R89). -/
theorem Claims.activeOnly {s t : State} (claims : Claims s t) (h : s.station.state ≠ .active → ∀ d, s.duty d = none) :
    t.station.state ≠ .active → ∀ d, t.duty d = none := by
  have gone {s t : State} {d e : Fin 16} (station : t.station = s.station) (out : t.station.state ≠ .active) {x : Duty}
      (there : s.duty d = some x) (h : s.station.state ≠ .active → ∀ d, s.duty d = none) : t.duty e = none := by
    rw [station] at out
    rw [h out] at there
    cases there
  induction claims with
  | refl => exact h
  | trans _ _ one two => exact two (one h)
  | other keeps still =>
    intro out d
    rw [State.duty_congr (congrArg _ (keeps.duties (by decide)))]
    exact h (still out) d
  | quit _ _ none => exact fun _ => none
  | makeDuty d k delay active _ _ _ still =>
    intro out
    rw [still] at out
    exact absurd (by simpa [State.isActive] using active) out
  | endDuty d x there _ still => exact fun out e => gone still out there h
  | turnDuty d x y there _ _ _ _ _ still => exact fun out e => gone still out there h
  | ripen d x there _ _ still => exact fun out e => gone still out there h
  | dropRecord _ _ _ keeps still =>
    intro out d
    rw [State.duty_congr (congrArg _ (keeps.duties (by decide)))]
    exact h (still ▸ out) d
  | turnHead _ _ _ _ _ keeps still =>
    intro out d
    rw [State.duty_congr (congrArg _ (keeps.duties (by decide)))]
    exact h (still ▸ out) d
  | endHead _ _ _ keeps still =>
    intro out d
    rw [State.duty_congr (congrArg _ (keeps.duties (by decide)))]
    exact h (still ▸ out) d

/-- Duties and station stand. -/
theorem DutiesSound.of_still {s t : State} (h : DutiesSound s) (duties : t.duties = s.duties)
    (active : t.station.state ≠ .active → s.station.state ≠ .active) (core : DutiesCore t) : DutiesSound t :=
  core.sound fun out d => by
    rw [State.duty_congr (congrArg _ duties)]
    exact h.activeOnly (active out) d

/-- The duties with the store and the queue they claim. -/
structure DutiesWith (s : State) : Prop where
  store : StoreSound s
  submission : SubmissionSound s
  duties : DutiesSound s

theorem DutiesWith.join {s : State} (off : s.station.state = .setup ∨ s.station.state = .ready) (h : DutiesWith s) :
    DutiesSound s.acceptJoin := by
  have only := acceptJoin_only s
  have duties : s.acceptJoin.duties = s.duties := only .duties (by decide)
  have station := acceptJoin_station s
  have store : s.acceptJoin.store = s.store := only .store (by decide)
  have submission := acceptJoin_submission s
  have inactive : s.station.state ≠ .active := by rcases off with off | off <;> rw [off] <;> nofun
  refine h.duties.of_still duties (fun _ => inactive) ?_
  have none (d : Fin 16) : s.acceptJoin.duty d = none := by
    rw [State.duty_congr (congrArg _ duties)]
    exact h.duties.activeOnly inactive d
  have core := h.duties.core
  refine ⟨fun d x there => ?_, by rw [duties]; exact core.eligibleNodup, fun d => ?_, fun d e x y there => ?_, fun d x there => ?_,
    ?_, fun d x there => ?_⟩
  · rw [none] at there; cases there
  · rw [duties, core.eligible d, State.duty_congr (congrArg _ duties)]
  · rw [none] at there; cases there
  · rw [none] at there; cases there
  · rw [submission, store]
    split
    · rename_i inside
      rw [h.submission.setupEmpty inside]
      nofun
    · rename_i outside
      intro x mem
      rw [ownKey_congr (s := s) (by rw [State.stn, station]; rfl) (by rw [submission, if_neg outside])]
      exact core.queuePinned x mem
  · rw [none] at there; cases there

theorem dutiesWith_exec {c : Instr} {s t : State} (e : exec c s = .next t) (mode : ModeSound s) (h : DutiesWith s) :
    DutiesWith t := by
  refine ⟨storeSound_exec e mode h.store, submissionSound_exec e mode h.submission, ?_⟩
  suffices all : StoreSound t ∧ SubmissionSound t ∧ DutiesSound t from all.2.2
  refine exec_keeps (I := fun s => StoreSound s ∧ SubmissionSound s ∧ DutiesSound s) e mode ?_ ?_ ?_ ?_ ?_ ?_ ?_
    ⟨h.store, h.submission, h.duties⟩
  · rintro s t on heard ⟨store, submission, duties⟩
    exact ⟨store.heard on heard, submission.heard heard,
      duties.of_still heard.duties (by rw [heard.station]; exact id) (duties.core.heard heard)⟩
  · rintro s t claims ⟨store, submission, duties⟩
    exact ⟨store.claims claims, submission.claims claims,
      (duties.core.claims claims store submission).sound (claims.activeOnly duties.activeOnly)⟩
  · rintro t e fresh share
    refine ⟨fresh.storeSound ?_, fresh.submissionSound, fresh.dutiesSound⟩
    rcases share with defaults | ⟨s, h, same⟩
    · rw [defaults]; decide
    · rw [same]; exact h.1.share
  · rintro s field v inside ⟨store, submission, duties⟩
    exact ⟨store.set inside field v, submission.congr rfl rfl id,
      duties.of_still rfl id (duties.core.same rfl rfl (fun _ => rfl) fun _ => id)⟩
  · rintro s off ⟨store, submission, duties⟩
    have station := acceptJoin_station s
    refine ⟨store.congr (acceptJoin_only s .store (by decide)) (by rw [State.stn, station]; rfl)
      (by rw [State.setup, station]; rfl) (by rw [station]; nofun), submission.join, ?_⟩
    exact DutiesWith.join off ⟨store, submission, duties⟩
  · intro w wend ready
    have station := takeDataWord_station s w wend
    have taken := takeDataWord_taken s w wend
    have duties : (s.takeDataWord w wend).duties = s.duties := takeDataWord_only s w wend .duties (by decide)
    exact ⟨h.store.taken taken station (not_setup_of_wrdy ready), h.submission.taken taken station ready,
      h.duties.of_still duties (by rw [station]; exact id)
        (h.duties.core.taken taken duties (congrArg StationControl.stn station))⟩
  · intro o _ _
    have only := serve_only s o
    have station : (s.serve o).station = s.station := only .station (by decide)
    have submission : (s.serve o).submission = s.submission := only .submission (by decide)
    refine ⟨h.store.pinsOnly (serve_pinsOnly s o) (congrArg StationControl.stn station)
        (congrArg (fun x => x.setup.ownShare) station) (by rw [station]; exact id), h.submission.serve o,
      h.duties.of_still (only .duties (by decide)) (by rw [station]; exact id) (h.duties.core.same (only .duties (by decide))
        (by rw [submission]) (ownKey_congr (congrArg StationControl.stn station) (by rw [submission])) fun k held => ?_)⟩
    exact serve_tx s o held

theorem DutiesWith.withPending {s : State} (l : List Instr) (h : DutiesWith s) : DutiesWith (s.withPending l) :=
  ⟨h.store.withPending l, h.submission.withPending l,
    h.duties.of_still rfl id (h.duties.core.same rfl rfl (fun _ => rfl) fun _ => id)⟩

/-- Settles O15: a duty is made by a conditional TX pin that was granted, and its end clears that pin alone. -/
theorem dutiesStaySound : Obligations.DutiesStaySound := fun _ _ e mode store submission h =>
  (step_keeps (P := fun s => ModeSound s ∧ DutiesWith s) (fun _ l h => ⟨withPending_mode l h.1, h.2.withPending l⟩)
    (fun _ h => h.2) (fun _ _ _ e h => dutiesWith_exec e h.1 h.2) e ⟨mode, ⟨store, submission, h⟩⟩).duties

end Sys2Proof.Machine
end

section
/-! The own context in step with the station's publishing (O16). -/

open Sys2Proof

namespace Sys2Proof.Machine

set_option Elab.async false

/-! ### The own entries with DUE -/

/-- The keys of the own entries with DUE, in the order of their age. -/
def Store.dueKeys (st : Store) : List Key := (st.own.filter fun e => e.pins.due).map fun e => e.key

theorem Store.mem_dueKeys {st : Store} {k : Key} : k ∈ st.dueKeys ↔ ∃ e ∈ st.own, e.pins.due = true ∧ e.key = k := by
  simp [Store.dueKeys, and_assoc]

theorem dueKeys_mapPins (st : Store) (k : Key) (f : Pins → Pins) (keep : ∀ p, (f p).due = p.due) :
    (st.mapPins k f).dueKeys = st.dueKeys := by
  simp only [Store.dueKeys, Store.mapPins, Store.mapEntries_own]
  induction st.own with
  | nil => rfl
  | cons e l ih =>
    simp only [List.map_cons, List.filter_cons]
    by_cases key : e.key = k <;> by_cases due : e.pins.due = true <;> simp [key, keep, due, ih]

theorem dueKeys_pinTx (st : Store) (k : Key) : (st.pinTx k).2.dueKeys = st.dueKeys := by
  rcases st.pinTx_cases k with h | h | h <;> rw [h]
  exact dueKeys_mapPins st k _ fun _ => rfl

theorem dueKeys_clearTx (st : Store) (k : Key) : (st.clearTx k).2.dueKeys = st.dueKeys := by
  rcases st.clearPin_cases k (fun p => p.tx) (fun p => { p with tx := false }) with h | h | h <;> rw [Store.clearTx, h]
  exact dueKeys_mapPins st k _ fun _ => rfl

theorem dueKeys_afterDrop (st : Store) (r : Record) : (st.afterDrop r).dueKeys = st.dueKeys := by
  cases r with
  | message k =>
    rcases st.clearPin_cases k (fun p => p.handed) (fun p => { p with handed := false }) with h | h | h <;>
      rw [Store.afterDrop, Store.clearHanded, h]
    exact dueKeys_mapPins st k _ fun _ => rfl
  | lost => rfl
  | restart => rfl

theorem dueKeys_handed (st : Store) (k : Key) :
    (st.mapPins k fun p => { p with due := false, handed := true }).dueKeys = st.dueKeys.filter fun j => j != k := by
  simp only [Store.dueKeys, Store.mapPins, Store.mapEntries_own]
  induction st.own with
  | nil => rfl
  | cons e l ih =>
    simp only [List.map_cons, List.filter_cons]
    by_cases key : e.key = k <;> by_cases due : e.pins.due = true <;> simp [key, due, ih]

/-- An eviction takes no entry with DUE. -/
theorem dueKeys_evicted {es rest : List Entry} {v : Entry} (h : evictOldest es = some (v, rest)) :
    rest.filter (fun e => e.pins.due) = es.filter fun e => e.pins.due := by
  obtain ⟨older, younger, rfl, rfl, -, empty⟩ := evictOldest_eq_some.mp h
  have : v.pins.due = false := by simp [Pins.isEmpty] at empty; simp [empty]
  simp [this]

theorem dueKeys_reserve {st st' : Store} {share : Nat} (h : st.reserve share = some st') : st'.dueKeys = st.dueKeys := by
  obtain ⟨-, -, -, ⟨-, own⟩ | ⟨-, v, evict⟩⟩ := Store.reserve_eq_some h
  · rw [Store.dueKeys, own]; rfl
  · rw [Store.dueKeys, dueKeys_evicted evict]; rfl

theorem dueKeys_restartRelease {st : Store} {o : Station} (epoch : Epoch) (peer : ∀ e ∈ st.own, e.key.origin ≠ o) :
    (st.restartRelease o epoch).dueKeys = st.dueKeys := by
  have : (st.restartRelease o epoch).own = st.own := by
    simp only [Store.restartRelease, Store.mapEntries_own]
    refine (List.map_congr_left fun e mem => ?_).trans (List.map_id _)
    rw [if_neg fun h => peer e mem h.1]; rfl
  rw [Store.dueKeys, this]; rfl

theorem dueKeys_nodup {s : State} (h : StoreSound s) : s.store.dueKeys.Nodup := by
  have keys := h.keys
  rw [List.map_append] at keys
  exact (List.nodup_append.mp keys).1.sublist (List.Sublist.map _ List.filter_sublist)

/-- With one entry to a key a key is deliverable when its entry carries DUE. -/
theorem Store.deliverable_iff {st : Store} (keys : ((st.own ++ st.peer).map fun e => e.key).Nodup) (k : Key) :
    st.deliverable k = true ↔ st.carries (fun p => p.due) k := by
  refine ⟨fun h => ?_, fun ⟨e, mem, key, due⟩ => ?_⟩
  · cases found : st.find k with
    | none => rw [(Store.lookup_of_absent found).2.2.1] at h; cases h
    | some e =>
      obtain ⟨mem, key⟩ := Store.find_eq_some found
      rw [(Store.lookup_of_find found).2.2.1] at h
      exact ⟨e, mem, key, h⟩
  · have found := Store.find_of_mem keys mem
    rw [key] at found
    rw [(Store.lookup_of_find found).2.2.1]
    exact due

theorem deliverable_own {s : State} (h : StoreSound s) {k : Key} (own : k.origin = s.stn) :
    s.store.deliverable k = true ↔ k ∈ s.store.dueKeys := by
  rw [Store.deliverable_iff h.keys, Store.mem_dueKeys]
  refine ⟨fun ⟨e, mem, key, due⟩ => ?_, fun ⟨e, mem, due, key⟩ => ⟨e, by simp [mem], key, due⟩⟩
  rcases List.mem_append.mp mem with mem | mem
  · exact ⟨e, mem, due, key⟩
  · exact absurd (key ▸ own) (h.peer e mem)

/-! ### The own context -/

/-- How many own messages wait for delivery: next-due up to next-seq. -/
def State.ownDue (s : State) : Nat := offset (s.ctx s.stn).nextDue s.submission.nextSeq

/-- OwnContextSound in terms of the own entries with DUE. -/
structure OwnView (s : State) : Prop where
  state : (s.ctx s.stn).state = .own
  epoch : (s.ctx s.stn).epoch = s.submission.ownEpoch
  floor : (s.ctx s.stn).lossFloor = (s.ctx s.stn).nextDue
  horizon : s.setup.loopback = true → (s.ctx s.stn).horizon + 1 = s.submission.nextUntx
  waiting : s.setup.loopback = true → ∀ i, i < s.ownDue →
    s.ownKey ((s.ctx s.stn).nextDue + BitVec.ofNat 16 i) ∈ s.store.dueKeys
  count : s.setup.loopback = true → s.store.dueKeys.length = s.ownDue
  off : s.setup.loopback = false → (s.ctx s.stn).nextDue = 0 ∧ (s.ctx s.stn).horizon = 65535 ∧ s.store.dueKeys = []
  setupFresh : s.station.state = .setup →
    (s.ctx s.stn).nextDue = 0 ∧ (s.ctx s.stn).horizon = 65535 ∧ s.submission.nextSeq = 0 ∧ s.submission.nextUntx = 0

theorem ownView_iff {s : State} (h : StoreSound s) : OwnContextSound s ↔ OwnView s := by
  have key (n : SeqNum) : s.store.deliverable (s.ownKey n) = true ↔ s.ownKey n ∈ s.store.dueKeys := deliverable_own h rfl
  have count : s.store.own.countP (fun e => e.pins.due) = s.store.dueKeys.length := by
    rw [Store.dueKeys, List.length_map, List.countP_eq_length_filter]
  have none : (∀ e ∈ s.store.own, e.pins.due = false) ↔ s.store.dueKeys = [] := by
    simp [Store.dueKeys, List.filter_eq_nil_iff]
  constructor
  · exact fun w => ⟨w.state, w.epoch, w.floor, w.horizon, fun on i lt => (key _).mp (w.deliverable on i lt),
      fun on => count ▸ w.dueCount on, fun off => ⟨(w.off off).1, (w.off off).2.1, none.mp (w.off off).2.2⟩, w.setupFresh⟩
  · exact fun w => ⟨w.state, w.epoch, w.floor, w.horizon, fun on i lt => (key _).mpr (w.waiting on i lt),
      fun on => count ▸ w.count on, fun off => ⟨(w.off off).1, (w.off off).2.1, none.mpr (w.off off).2.2⟩, w.setupFresh⟩

/-- The own context's place, the own numbers and the entries with DUE stand. -/
theorem OwnView.same {s t : State} (h : OwnView s) (stn : t.stn = s.stn) (loopback : t.setup.loopback = s.setup.loopback)
    (inside : t.station.state = .setup → s.station.state = .setup)
    (state : (t.ctx s.stn).state = .own) (place : (t.ctx s.stn).place = (s.ctx s.stn).place)
    (epoch : t.submission.ownEpoch = s.submission.ownEpoch) (seq : t.submission.nextSeq = s.submission.nextSeq)
    (untx : t.submission.nextUntx = s.submission.nextUntx) (due : t.store.dueKeys = s.store.dueKeys) : OwnView t := by
  have ownKey := ownKey_congr stn epoch
  simp only [Context.place, Prod.mk.injEq] at place
  obtain ⟨e, n, hor, floor⟩ := place
  have ownDue : t.ownDue = s.ownDue := by rw [State.ownDue, State.ownDue, stn, n, seq]
  constructor <;> simp only [stn, loopback, e, n, hor, floor, epoch, seq, untx, due, ownKey, ownDue]
  · exact state
  · exact h.epoch
  · exact h.floor
  · exact h.horizon
  · exact h.waiting
  · exact h.count
  · exact h.off
  · exact fun x => h.setupFresh (inside x)

theorem OwnView.keeps {s t : State} {bs : List Block} (h : OwnView s) (keeps : Keeps bs s t)
    (out : Block.contexts ∉ bs) (epoch : t.submission.ownEpoch = s.submission.ownEpoch)
    (seq : t.submission.nextSeq = s.submission.nextSeq) (untx : t.submission.nextUntx = s.submission.nextUntx)
    (due : t.store.dueKeys = s.store.dueKeys) : OwnView t :=
  have kept := keeps.own out s.stn
  h.same keeps.stn (by rw [keeps.setup]) keeps.inside (kept.1.mpr h.state) (kept.2 h.state) epoch seq untx due

theorem OwnView.of_keeps {s t : State} {bs : List Block} (h : OwnView s) (keeps : Keeps bs s t)
    (out : Block.contexts ∉ bs ∧ Block.submission ∉ bs) (due : t.store.dueKeys = s.store.dueKeys) : OwnView t := by
  have submission := keeps.submission out.2
  exact h.keeps keeps out.1 (by rw [submission]) (by rw [submission]) (by rw [submission]) due

/-- The first transmission of the head ends (R48, R120). -/
theorem OwnView.endHead {s t : State} (h : OwnView s) (submissionSound : SubmissionSound s) (x : DataDuty)
    (rest : List DataDuty) (queue : s.submission.queue = x :: rest) (keeps : Keeps [.store, .submission, .contexts] s t)
    (store : t.store = (s.store.clearTx (s.ownKey x.seq)).2)
    (submission : t.submission = { s.submission with queue := rest, nextUntx := x.seq + 1 })
    (ctx : ∀ o, t.ctx o = if s.setup.loopback = true ∧ o = s.stn then { s.ctx o with horizon := x.seq } else s.ctx o) :
    OwnView t := by
  have due : t.store.dueKeys = s.store.dueKeys := by rw [store, dueKeys_clearTx]
  have ownKey := ownKey_congr keeps.stn (t := t) (s := s) (by rw [submission])
  have loopback : t.setup.loopback = s.setup.loopback := by rw [keeps.setup]
  have own := ctx s.stn
  have nextDue : (t.ctx t.stn).nextDue = (s.ctx s.stn).nextDue := by rw [keeps.stn, own]; split <;> rfl
  have ownDue : t.ownDue = s.ownDue := by rw [State.ownDue, State.ownDue, nextDue, submission]
  constructor
  · rw [keeps.stn, own]; split <;> exact h.state
  · rw [keeps.stn, own, submission]; split <;> exact h.epoch
  · rw [keeps.stn, own]; split <;> exact h.floor
  · intro on
    rw [loopback] at on
    rw [keeps.stn, own, if_pos ⟨on, rfl⟩, submission]
  · intro on
    rw [loopback] at on
    simp only [nextDue, ownDue, ownKey, due]
    exact h.waiting on
  · intro on
    rw [loopback] at on
    rw [ownDue, due]
    exact h.count on
  · intro off
    rw [loopback] at off
    rw [keeps.stn, own, if_neg (by simp [off]), due]
    exact h.off off
  · intro inside
    rw [submissionSound.setupEmpty (keeps.inside inside)] at queue
    cases queue

theorem OwnView.claims {s t : State} (claims : Claims s t) (submission : SubmissionSound s) (h : OwnView s) : OwnView t := by
  induction claims with
  | refl => exact h
  | trans one _ first second => exact second (submission.claims one) (first submission h)
  | other keeps => exact h.of_keeps keeps (by decide) (by rw [keeps.store (by decide)])
  | quit keeps _ _ ih =>
    exact ih (submission.congr (keeps.submission (by decide)) (by rw [keeps.store (by decide)]) keeps.inside)
      (h.of_keeps keeps (by decide) (by rw [keeps.store (by decide)]))
  | makeDuty _ k _ _ _ _ keeps _ store => exact h.of_keeps keeps (by decide) (by rw [store, dueKeys_pinTx])
  | endDuty _ _ _ keeps _ store => exact h.of_keeps keeps (by decide) (by rw [store, dueKeys_clearTx])
  | turnDuty _ _ _ _ _ _ _ _ keeps => exact h.of_keeps keeps (by decide) (by rw [keeps.store (by decide)])
  | ripen _ _ _ _ keeps => exact h.of_keeps keeps (by decide) (by rw [keeps.store (by decide)])
  | dropRecord r _ _ keeps _ _ store => exact h.of_keeps keeps (by decide) (by rw [store, dueKeys_afterDrop])
  | turnHead x y rest queue seq keeps _ now =>
    exact h.keeps keeps (by decide) (by rw [now]) (by rw [now]) (by rw [now]) (by rw [keeps.store (by decide)])
  | endHead x rest queue keeps _ store now ctx => exact h.endHead submission x rest queue keeps store now ctx

theorem OwnView.heard {s t : State} (heard : Heard s t) (own : ∀ e ∈ s.store.own, e.key.origin = s.stn) (h : OwnView s) :
    OwnView t ∧ ∀ e ∈ t.store.own, e.key.origin = t.stn := by
  induction heard with
  | refl => exact ⟨h, own⟩
  | trans _ _ one two => exact have first := one own h; two first.2 first.1
  | other keeps =>
    exact ⟨h.of_keeps keeps (by decide) (by rw [keeps.store (by decide)]), by rw [keeps.store (by decide), keeps.stn]; exact own⟩
  | @insert s t e peer _ _ keeps _ store =>
    have ownStands : t.store.own = s.store.own := by
      rcases insert_peer_kept peer (st := s.store) (share := s.setup.ownShare) with same | ⟨-, kept, eq, -⟩
      · rw [store, same]
      · rw [store, eq]
    exact ⟨h.of_keeps keeps (by decide) (by rw [Store.dueKeys, ownStands]; rfl), by rw [ownStands, keeps.stn]; exact own⟩
  | @withhold s t o epoch peer keeps _ store =>
    refine ⟨h.of_keeps keeps (by decide) ?_, fun e mem => ?_⟩
    · rw [store, dueKeys_restartRelease epoch fun e mem => own e mem ▸ peer.symm]
    · rw [store] at mem
      obtain ⟨e', mem', eq⟩ := mem_of_map_eq (PinsOnly.restartRelease s.store o epoch).own.symm mem
      rw [keeps.stn, ← own e' mem']
      exact (congrArg (fun x => x.1.origin) eq).symm

/-! ### A message submitted -/

/-- The next number's key is the one past those that wait. -/
theorem nextKey_eq (s : State) : s.nextKey = s.ownKey s.submission.nextSeq := rfl

theorem offset_add (a b : SeqNum) : a + BitVec.ofNat 16 (offset a b) = b := by
  unfold offset
  rw [BitVec.ofNat_toNat, BitVec.setWidth_eq]
  bv_omega

theorem offset_succ {a b : SeqNum} (h : offset a b < 65535) : offset a (b + 1) = offset a b + 1 := by
  unfold offset at *
  bv_omega

theorem OwnView.taken {s t : State} {w : Word} (taken : WordTaken s t w) (store : StoreSound s) (station : t.station = s.station)
    (contexts : t.contexts = s.contexts) (on : s.station.state ≠ .setup) (h : OwnView s) : OwnView t := by
  have stn : t.stn = s.stn := congrArg StationControl.stn station
  have loopback : t.setup.loopback = s.setup.loopback := congrArg (fun x => x.setup.loopback) station
  have inside : t.station.state = .setup → s.station.state = .setup := by rw [station]; exact id
  have ctx := State.ctx_congr contexts
  have same (epoch : t.submission.ownEpoch = s.submission.ownEpoch) (seq : t.submission.nextSeq = s.submission.nextSeq)
      (untx : t.submission.nextUntx = s.submission.nextUntx) (due : t.store.dueKeys = s.store.dueKeys) : OwnView t :=
    h.same stn loopback inside (by rw [ctx]; exact h.state) (by rw [ctx]) epoch seq untx due
  cases taken with
  | dropped eq now => exact same (by rw [now]) (by rw [now]) (by rw [now]) (by rw [eq])
  | between eq _ _ _ now => exact same (by rw [now]) (by rw [now]) (by rw [now]) (by rw [eq])
  | starts st reserve _ _ eq now =>
    exact same (by rw [now]) (by rw [now]) (by rw [now]) (by rw [eq, dueKeys_reserve reserve])
  | collects _ eq _ now => exact same (by rw [now]) (by rw [now]) (by rw [now]) (by rw [eq]; rfl)
  | awaits _ eq _ now => exact same (by rw [now]) (by rw [now]) (by rw [now]) (by rw [eq]; rfl)
  | rejects _ eq _ _ _ now => exact same (by rw [now]) (by rw [now]) (by rw [now]) (by rw [eq]; rfl)
  | completes _ _ answer st claim eq now =>
    rcases complete_cases claim with ⟨rfl, -, st'⟩ | ⟨rfl, -, -, st'⟩ | ⟨bytes, rfl, -, -, st'⟩
    · exact same (by rw [now]) (by rw [now]; rfl) (by rw [now]) (by rw [eq, st']; rfl)
    · exact same (by rw [now]) (by rw [now]; rfl) (by rw [now]) (by rw [eq, st']; rfl)
    · have ownKey := ownKey_congr stn (t := t) (s := s) (by rw [now])
      have seq : t.submission.nextSeq = s.submission.nextSeq + 1 := by rw [now]; rfl
      have due : t.store.dueKeys = if s.setup.loopback then s.store.dueKeys ++ [s.nextKey] else s.store.dueKeys := by
        rw [eq, st']
        cases on : s.setup.loopback <;>
          simp [Store.dueKeys, State.completionPins, Store.writeReserved, List.filter_append, on]
      have owns (on : s.setup.loopback = true) : t.ownDue = s.ownDue + 1 := by
        have room := store.ownRoom
        have share := store.share
        have few : s.store.dueKeys.length ≤ s.store.own.length := by
          rw [Store.dueKeys, List.length_map]; exact List.length_filter_le _ _
        rw [h.count on] at few
        rw [State.ownDue, stn, ctx, seq]
        exact offset_succ (by change s.ownDue < 65535; omega)
      constructor
      · rw [stn, ctx]; exact h.state
      · rw [stn, ctx, now]; exact h.epoch
      · rw [stn, ctx]; exact h.floor
      · rw [loopback, stn, ctx, now]; exact h.horizon
      · intro on i lt
        rw [loopback] at on
        rw [owns on] at lt
        rw [ownKey, stn, ctx, due, if_pos on]
        rcases Nat.lt_succ_iff_lt_or_eq.mp lt with lt | eq
        · exact List.mem_append.mpr (.inl (h.waiting on i lt))
        · rw [eq, State.ownDue, offset_add, ← nextKey_eq]; simp
      · intro on
        rw [loopback] at on
        rw [owns on, due, if_pos on, List.length_append, h.count on]; rfl
      · intro off
        rw [loopback] at off
        rw [stn, ctx, due, if_neg (by simp [off])]
        exact h.off off
      · exact fun x => absurd (inside x) on

/-! ### A turn of the Delivery Engine -/

/-- An advance claim touches its own context alone, tracker-held flags aside. -/
theorem settle_ctx_other (s : State) {o p : Station} (ne : p ≠ o) (was : ContextState) (must : Bool) :
    ((s.settle o was must).ctx p).state = (s.ctx p).state ∧ ((s.settle o was must).ctx p).place = (s.ctx p).place := by
  have decided : (s.decideState o).ctx p = s.ctx p := by
    unfold State.decideState
    split
    · rw [State.ctx_setCtx, if_neg ne]
    · rfl
  unfold State.settle
  dsimp only
  split
  · rw [(changeNotice_heldOnly _ o) p, decided]; exact ⟨rfl, rfl⟩
  · rw [decided]; exact ⟨rfl, rfl⟩

theorem advance_ctx_other (s : State) {o p : Station} (ne : p ≠ o) (n : SeqNum) :
    ((s.advance o n).ctx p).state = (s.ctx p).state ∧ ((s.advance o n).ctx p).place = (s.ctx p).place := by
  have set : (s.setCtx o ((s.ctx o).advanceTo n)).ctx p = s.ctx p := by rw [State.ctx_setCtx, if_neg ne]
  unfold State.advance
  dsimp only
  split
  · have := settle_ctx_other (s.setCtx o ((s.ctx o).advanceTo n)) ne (s.ctx o).state true
    rwa [set] at this
  · rw [set]; exact ⟨rfl, rfl⟩

theorem serve_ctx_other (s : State) {o p : Station} (ne : p ≠ o) :
    ((s.serve o).ctx p).state = (s.ctx p).state ∧ ((s.serve o).ctx p).place = (s.ctx p).place := by
  unfold State.serve
  dsimp only
  split
  · have before : (((s.withDelivery { s.delivery with lastServed := o }).applyStore
        ((s.withDelivery { s.delivery with lastServed := o }).store.hand
          ((s.withDelivery { s.delivery with lastServed := o }).keyOf o
            ((s.withDelivery { s.delivery with lastServed := o }).ctx o).nextDue)).2).enqueue
        (.message ((s.withDelivery { s.delivery with lastServed := o }).keyOf o
            ((s.withDelivery { s.delivery with lastServed := o }).ctx o).nextDue))).ctx p = s.ctx p :=
      State.ctx_congr (applyStore_only _ _ .contexts (by decide)) p
    exact before ▸ advance_ctx_other _ ne _
  · exact advance_ctx_other _ ne _
  · refine (?_ : ∀ v : State, v.ctx p = s.ctx p → ((v.advanceRestart o).ctx p).state = (s.ctx p).state ∧
        ((v.advanceRestart o).ctx p).place = (s.ctx p).place) _ rfl
    intro v same
    rw [State.advanceRestart, State.ctx_setCtx, if_neg ne, same]
    exact ⟨rfl, rfl⟩
  · exact ⟨rfl, rfl⟩

/-- The store after a turn at `o`: a hand claim of a key of `o`, or nothing. -/
theorem serve_store (s : State) (o : Station) : (s.serve o).store =
    if s.ready o = .message then (s.store.hand (s.keyOf o (s.ctx o).nextDue)).2 else s.store := by
  unfold State.serve
  dsimp only
  split
  · rename_i ready
    rw [if_pos ready]
    exact (advance_only _ _ _ .store (by decide)).trans (applyStore_store (s.withDelivery _) _)
  · rename_i ready
    rw [if_neg (by rw [ready]; nofun)]
    exact advance_only _ _ _ .store (by decide)
  · rename_i ready
    rw [if_neg (by rw [ready]; nofun)]
    rfl
  · rename_i ready
    rw [if_neg (by rw [ready]; nofun)]

/-- The own context is ready for a MESSAGE alone, while its horizon is at or after its next-due (R92). -/
theorem ready_of_own {s : State} {o : Station} (own : (s.ctx o).state = .own) (h : s.ready o ≠ .no) :
    s.ready o = .message ∧ offset (s.ctx o).nextDue (s.ctx o).horizon ≤ 32767 := by
  unfold State.ready at h ⊢
  dsimp only at h ⊢
  rw [own] at h ⊢
  dsimp only at h ⊢
  split at h
  · rename_i reach
    exact ⟨by rw [if_pos reach], reach⟩
  · exact absurd rfl h

theorem advance_own {s : State} {o : Station} (own : (s.ctx o).state = .own) (n : SeqNum) :
    (s.advance o n).ctx o = (s.ctx o).advanceTo n := by
  have : (s.ctx o).isSynced = false := by rw [Context.isSynced, own]; rfl
  unfold State.advance
  dsimp only
  rw [this, if_neg Bool.false_ne_true, State.ctx_setCtx, if_pos rfl]

theorem serve_own_ctx {s : State} {o : Station} (own : (s.ctx o).state = .own) (ready : s.ready o = .message) :
    (s.serve o).ctx o = (s.ctx o).advanceTo ((s.ctx o).nextDue + 1) := by
  unfold State.serve State.makeMessage
  dsimp only
  rw [ready]
  dsimp only
  have before (st : Store) (r : Record) : (((s.withDelivery { s.delivery with lastServed := o }).applyStore st).enqueue r).ctx o =
      s.ctx o := State.ctx_congr (applyStore_only (s.withDelivery _) st .contexts (by decide)) o
  rw [advance_own (by rw [before]; exact own), before]
  rfl

theorem later_succ_self (n : SeqNum) : later (n + 1) n = n + 1 := by
  unfold later after
  rw [if_neg]
  simp only [Bool.and_eq_true, decide_eq_true_eq, not_and, Nat.not_le]
  intro
  bv_omega

/-- What loopback has to deliver is in the queue of own entries with DUE (R92, R47). -/
theorem OwnView.ready {s : State} (h : OwnView s) (submission : SubmissionSound s)
    (reach : offset (s.ctx s.stn).nextDue (s.ctx s.stn).horizon ≤ 32767) :
    s.setup.loopback = true ∧ 0 < s.ownDue ∧ s.station.state ≠ .setup := by
  have on : s.setup.loopback = true := by
    cases off : s.setup.loopback with
    | true => rfl
    | false =>
      obtain ⟨zero, horizon, -⟩ := h.off off
      rw [zero, horizon] at reach
      exact absurd reach (by decide)
  refine ⟨on, ?_, fun inside => ?_⟩
  · have horizon := h.horizon on
    have nextSeq := submission.nextSeq
    have room := submission.room
    rw [State.ownDue, nextSeq, ← horizon]
    unfold offset at *
    simp only [Config.dataQueueSize] at room
    generalize s.submission.queue.length = q at *
    generalize (s.ctx s.stn).nextDue = a at *
    generalize (s.ctx s.stn).horizon = b at *
    bv_omega
  · obtain ⟨zero, horizon, -⟩ := h.setupFresh inside
    rw [zero, horizon] at reach
    exact absurd reach (by decide)

theorem OwnView.serve {s : State} {o : Station} (store : StoreSound s) (submission : SubmissionSound s) (h : OwnView s)
    (ready : s.ready o ≠ .no) : OwnView (s.serve o) := by
  have only := serve_only s o
  have station : (s.serve o).station = s.station := only .station (by decide)
  have sub : (s.serve o).submission = s.submission := only .submission (by decide)
  have stn : (s.serve o).stn = s.stn := congrArg StationControl.stn station
  have loopback : (s.serve o).setup.loopback = s.setup.loopback := congrArg (fun x => x.setup.loopback) station
  have ownKey := ownKey_congr stn (t := s.serve o) (s := s) (by rw [sub])
  by_cases own : o = s.stn
  · subst own
    obtain ⟨message, reach⟩ := ready_of_own h.state ready
    obtain ⟨on, some, outside⟩ := h.ready submission reach
    have ctx := serve_own_ctx h.state message
    have key : s.keyOf s.stn (s.ctx s.stn).nextDue = s.ownKey (s.ctx s.stn).nextDue := by
      rw [State.keyOf, State.ownKey, h.epoch]
    have first : s.ownKey (s.ctx s.stn).nextDue ∈ s.store.dueKeys := by
      have := h.waiting on 0 some
      rwa [show (s.ctx s.stn).nextDue + BitVec.ofNat 16 0 = (s.ctx s.stn).nextDue by simp] at this
    have due : (s.serve s.stn).store.dueKeys = s.store.dueKeys.filter fun j => j != s.ownKey (s.ctx s.stn).nextDue := by
      rw [serve_store, if_pos message, key]
      obtain ⟨e, mem, due, keyed⟩ := Store.mem_dueKeys.mp first
      have found := Store.find_of_mem store.keys (List.mem_append.mpr (.inl mem))
      rw [keyed] at found
      rw [Store.hand, found]
      dsimp only
      rw [if_pos due]
      exact dueKeys_handed _ _
    have nextDue : ((s.serve s.stn).ctx s.stn).nextDue = (s.ctx s.stn).nextDue + 1 := by rw [ctx]; rfl
    have fewer : (s.serve s.stn).ownDue + 1 = s.ownDue := by
      rw [State.ownDue, stn, nextDue, sub]
      unfold State.ownDue at some ⊢
      unfold offset at *
      bv_omega
    constructor
    · rw [stn, ctx]; exact h.state
    · rw [stn, ctx, sub]; exact h.epoch
    · rw [stn, ctx, Context.advanceTo]
      dsimp only
      rw [h.floor, later_succ_self]
    · intro _
      rw [stn, ctx, sub]
      exact h.horizon on
    · intro _ i lt
      rw [ownKey, stn, nextDue, due]
      have here := h.waiting on (i + 1) (by omega)
      have next : (s.ctx s.stn).nextDue + 1 + BitVec.ofNat 16 i = (s.ctx s.stn).nextDue + BitVec.ofNat 16 (i + 1) := by
        bv_omega
      rw [next]
      refine List.mem_filter.mpr ⟨here, ?_⟩
      rw [bne_iff_ne]
      intro eq
      have small : s.ownDue < 65536 := by unfold State.ownDue offset; omega
      have := congrArg BitVec.toNat (ownKey_inj eq)
      simp only [BitVec.toNat_add, BitVec.toNat_ofNat] at this
      omega
    · intro _
      rw [due, ← (dueKeys_nodup store).erase_eq_filter, List.length_erase_of_mem first, h.count on]
      omega
    · intro off
      rw [loopback, on] at off
      cases off
    · intro inside
      rw [station] at inside
      exact absurd inside outside
  · obtain ⟨state, place⟩ := serve_ctx_other s (Ne.symm own)
    refine h.same stn loopback (by rw [station]; exact id) (state.trans h.state) place (by rw [sub]) (by rw [sub]) (by rw [sub]) ?_
    rw [serve_store]
    split
    · rcases s.store.hand_cases (s.keyOf o (s.ctx o).nextDue) with eq | eq | eq <;> rw [eq]
      dsimp only
      rw [dueKeys_handed, List.filter_eq_self.mpr]
      intro k mem
      obtain ⟨e, inOwn, -, rfl⟩ := Store.mem_dueKeys.mp mem
      rw [bne_iff_ne]
      intro eq
      exact own ((congrArg Key.origin eq).symm.trans (store.own e inOwn))
    · rfl

/-! ### JOIN and SET -/

theorem OwnView.set {s : State} (store : StoreSound s) (inside : s.station.state = .setup) (field v : Nat) (h : OwnView s) :
    OwnView (s.withStation { s.station with setup := (s.setup.write field v).2 }) := by
  obtain ⟨nextDue, horizon, nextSeq, nextUntx⟩ := h.setupFresh inside
  have none : s.store.dueKeys = [] := by rw [store.setupEmpty inside]; rfl
  have zero : offset (s.ctx s.stn).nextDue s.submission.nextSeq = 0 := by rw [nextDue, nextSeq]; rfl
  refine ⟨h.state, h.epoch, h.floor, fun _ => ?_, fun _ i lt => ?_, fun _ => ?_, fun _ => ⟨nextDue, horizon, none⟩,
    fun _ => h.setupFresh inside⟩
  · change (s.ctx s.stn).horizon + 1 = s.submission.nextUntx
    rw [horizon, nextUntx]; rfl
  · change i < offset (s.ctx s.stn).nextDue s.submission.nextSeq at lt
    omega
  · change s.store.dueKeys.length = offset (s.ctx s.stn).nextDue s.submission.nextSeq
    rw [none, zero]; rfl

theorem acceptJoin_ctx (s : State) (o : Station) : (s.acceptJoin).ctx o =
    if s.station.state = .setup then
      if o = s.stn then { s.ctx o with epoch := s.setup.initialEpoch, nextDue := 0, horizon := 65535, lossFloor := 0 } else s.ctx o
    else if (s.ctx o).heardSinceReset then { s.ctx o with silenceTimer := some s.silencePeriod } else s.ctx o := by
  unfold State.acceptJoin
  dsimp only
  split
  · rw [State.ctx_setCtx]
    split
    · rename_i eq; rw [eq]
    · rfl
  · unfold State.startSilenceTimers
    simp only [State.ctx, State.withContexts, Vector.getElem_map]
    rfl

theorem OwnView.join {s : State} (store : StoreSound s) (h : OwnView s) : OwnView s.acceptJoin := by
  have station := acceptJoin_station s
  have stn : s.acceptJoin.stn = s.stn := by rw [State.stn, station]; rfl
  have setup : s.acceptJoin.setup = s.setup := by rw [State.setup, station]; rfl
  have stays : s.acceptJoin.store = s.store := acceptJoin_only s .store (by decide)
  have outside : s.acceptJoin.station.state ≠ .setup := by rw [station]; nofun
  have submission := acceptJoin_submission s
  have ctx := acceptJoin_ctx s s.stn
  by_cases inside : s.station.state = .setup
  · obtain ⟨nextDue, horizon, nextSeq, nextUntx⟩ := h.setupFresh inside
    rw [if_pos inside, if_pos rfl] at ctx
    rw [if_pos inside] at submission
    have none : s.acceptJoin.store.dueKeys = [] := by rw [stays, store.setupEmpty inside]; rfl
    have zero : s.acceptJoin.ownDue = 0 := by rw [State.ownDue, stn, ctx, submission, nextSeq]; exact (by decide : offset 0 0 = 0)
    refine ⟨?_, ?_, ?_, fun _ => ?_, fun _ i lt => ?_, fun _ => ?_, fun _ => ⟨?_, ?_, none⟩, fun x => absurd x outside⟩
    · rw [stn, ctx]; exact h.state
    · rw [stn, ctx, submission]
    · rw [stn, ctx]
    · rw [stn, ctx, submission, nextUntx]; exact (by decide : (65535 : SeqNum) + 1 = 0)
    · omega
    · rw [none, zero]; rfl
    · rw [stn, ctx]
    · rw [stn, ctx]
  · rw [if_neg inside] at ctx submission
    refine h.same stn (by rw [setup]) (fun x => absurd x outside) ?_ ?_ (by rw [submission]) (by rw [submission])
      (by rw [submission]) (by rw [stays])
    · rw [ctx]; split <;> exact h.state
    · rw [ctx]; split <;> rfl

/-! ### Every command -/

/-- The own context with the store and the queue it follows. -/
structure OwnWith (s : State) : Prop where
  store : StoreSound s
  submission : SubmissionSound s
  own : OwnView s

theorem nextReady_ready {s : State} {o : Station} (h : s.nextReady = some o) : s.ready o ≠ .no := by
  simpa using List.find?_some h

theorem ownWith_exec {c : Instr} {s t : State} (e : exec c s = .next t) (mode : ModeSound s) (h : OwnWith s) : OwnWith t := by
  have share {t : State} (share : t.setup = Setup.defaults ∨ ∃ s, OwnWith s ∧ t.setup = s.setup) :
      8 ≤ t.setup.ownShare ∧ t.setup.ownShare ≤ 512 := by
    rcases share with defaults | ⟨s, h, same⟩
    · rw [defaults]; decide
    · rw [same]; exact h.store.share
  refine exec_keeps (I := OwnWith) e mode ?_ ?_ ?_ ?_ ?_ ?_ ?_ h
  · rintro s t on heard ⟨store, submission, own⟩
    exact ⟨store.heard on heard, submission.heard heard, (own.heard heard store.own).1⟩
  · rintro s t claims ⟨store, submission, own⟩
    exact ⟨store.claims claims, submission.claims claims, own.claims claims submission⟩
  · rintro t e fresh setup
    have store := fresh.storeSound (share setup)
    exact ⟨store, fresh.submissionSound, (ownView_iff store).mp fresh.ownContextSound⟩
  · rintro s field v inside ⟨store, submission, own⟩
    exact ⟨store.set inside field v, submission.congr rfl rfl id, own.set store inside field v⟩
  · rintro s - ⟨store, submission, own⟩
    have station := acceptJoin_station s
    exact ⟨store.congr (acceptJoin_only s .store (by decide)) (by rw [State.stn, station]; rfl)
      (by rw [State.setup, station]; rfl) (by rw [station]; nofun), submission.join, own.join store⟩
  · intro w wend ready
    have station := takeDataWord_station s w wend
    have taken := takeDataWord_taken s w wend
    have contexts : (s.takeDataWord w wend).contexts = s.contexts := takeDataWord_only s w wend .contexts (by decide)
    have on := not_setup_of_wrdy ready
    exact ⟨h.store.taken taken station on, h.submission.taken taken station ready, h.own.taken taken h.store station contexts on⟩
  · intro o _ ready
    have station : (s.serve o).station = s.station := serve_only s o .station (by decide)
    exact ⟨h.store.pinsOnly (serve_pinsOnly s o) (congrArg StationControl.stn station)
      (congrArg (fun x => x.setup.ownShare) station) (by rw [station]; exact id), h.submission.serve o,
      h.own.serve h.store h.submission (nextReady_ready ready)⟩

theorem OwnView.withPending {s : State} (l : List Instr) (h : OwnView s) : OwnView (s.withPending l) :=
  h.same rfl rfl id h.state rfl rfl rfl rfl rfl

theorem OwnWith.withPending {s : State} (l : List Instr) (h : OwnWith s) : OwnWith (s.withPending l) :=
  ⟨h.store.withPending l, h.submission.withPending l, h.own.withPending l⟩

/-- Settles O16: a completed message adds one to the own entries with DUE at their end, a turn takes the first of them. -/
theorem ownContextStaysSound : Obligations.OwnContextStaysSound := fun _ _ e mode store submission h =>
  have after := step_keeps (P := fun s => ModeSound s ∧ OwnWith s)
    (fun _ l h => ⟨withPending_mode l h.1, h.2.withPending l⟩) (fun _ h => h.2) (fun _ _ _ e h => ownWith_exec e h.1 h.2) e
    ⟨mode, ⟨store, submission, (ownView_iff store).mp h⟩⟩
  (ownView_iff after.store).mpr after.own

end Sys2Proof.Machine
end

section
/-! The Delivery Queue: each MESSAGE record on an entry with HANDED, none twice (O17). -/

open Sys2Proof

namespace Sys2Proof.Machine

set_option Elab.async false

/-! ### A property of all pin sets -/

/-- Every entry's pins satisfy `p`. -/
def Store.allPins (st : Store) (p : Pins → Prop) : Prop := ∀ e ∈ st.own ++ st.peer, p e.pins

namespace Store.allPins

variable {st : Store} {p : Pins → Prop}

theorem mapEntries (h : st.allPins p) (f : Entry → Entry) (keep : ∀ e, p e.pins → p (f e).pins) : (st.mapEntries f).allPins p := by
  intro e mem
  rw [Store.mapEntries_all] at mem
  obtain ⟨x, before, rfl⟩ := List.mem_map.mp mem
  exact keep x (h x before)

theorem mapPins (h : st.allPins p) (k : Key) (f : Pins → Pins) (keep : ∀ q, p q → p (f q)) : (st.mapPins k f).allPins p :=
  h.mapEntries _ fun e holds => by split <;> simp_all

theorem pinTx (h : st.allPins p) (k : Key) (keep : ∀ q, p q → p { q with tx := true }) : (st.pinTx k).2.allPins p := by
  rcases st.pinTx_cases k with eq | eq | eq <;> rw [eq]
  · exact h
  · exact h
  · exact h.mapPins k _ keep

theorem hand (h : st.allPins p) (k : Key) (keep : ∀ q, p q → p { q with due := false, handed := true }) :
    (st.hand k).2.allPins p := by
  rcases st.hand_cases k with eq | eq | eq <;> rw [eq]
  · exact h
  · exact h
  · exact h.mapPins k _ keep

theorem clearPin (h : st.allPins p) (k : Key) (carried : Pins → Bool) (remove : Pins → Pins) (keep : ∀ q, p q → p (remove q)) :
    (st.clearPin k carried remove).2.allPins p := by
  rcases st.clearPin_cases k carried remove with eq | eq | eq <;> rw [eq]
  · exact h
  · exact h
  · exact h.mapPins k _ keep

theorem afterDrop (h : st.allPins p) (r : Record) (keep : ∀ q, p q → p { q with handed := false }) :
    (st.afterDrop r).allPins p := by
  cases r with
  | message k => exact h.clearPin k _ _ keep
  | lost => exact h
  | restart => exact h

theorem insert (h : st.allPins p) {stn : Station} {share : Nat} {e : Entry} (peer : e.key.origin ≠ stn) (new : p e.pins) :
    (st.insert stn share e).2.allPins p := by
  rcases insert_peer_kept peer (st := st) (share := share) with same | ⟨-, kept, eq, sub, -⟩
  · rw [same]; exact h
  · rw [eq]
    intro x mem
    rcases List.mem_append.mp mem with mem | mem
    · exact h x (List.mem_append.mpr (.inl mem))
    · rcases List.mem_append.mp mem with mem | mem
      · exact h x (List.mem_append.mpr (.inr (sub.subset mem)))
      · rw [List.mem_singleton.mp mem]; exact new

end Store.allPins

theorem WordTaken.allPins {s t : State} {w : Word} (taken : WordTaken s t w) {p : Pins → Prop} (h : s.store.allPins p)
    (new : p s.completionPins) : t.store.allPins p := by
  cases taken with
  | dropped store => rw [store]; exact h
  | between store => rw [store]; exact h
  | starts st reserve _ _ store =>
    obtain ⟨-, -, peer, sub, -⟩ := reserve_kept reserve
    rw [store]
    intro x mem
    rw [peer] at mem
    exact h x (List.mem_append.mpr ((List.mem_append.mp mem).imp (sub.subset ·) id))
  | collects _ store => rw [store]; exact h
  | awaits _ store => rw [store]; exact h
  | rejects _ store => rw [store]; exact h
  | completes _ _ answer st claim store =>
    rcases complete_cases claim with ⟨-, -, eq⟩ | ⟨-, -, -, eq⟩ | ⟨bytes, -, -, -, eq⟩
    · rw [store, eq]; exact h
    · rw [store, eq]; exact h
    · rw [store, eq]
      intro x mem
      rcases List.mem_append.mp mem with mem | mem
      · rcases List.mem_append.mp mem with mem | mem
        · exact h x (List.mem_append.mpr (.inl mem))
        · rw [List.mem_singleton.mp mem]; exact new
      · exact h x (List.mem_append.mpr (.inr mem))

/-! ### The Delivery Queue -/

/-- The queue's records and the pins they refer to. -/
theorem deliverySound_iff {s : State} : DeliverySound s ↔
    s.delivery.queue.length ≤ Config.deliverySize ∧
      (∀ k ∈ s.delivery.messageKeys, s.store.carries (fun p => p.handed) k) ∧ s.delivery.messageKeys.Nodup ∧
      s.store.allPins fun p => ¬ (p.due = true ∧ p.handed = true) :=
  ⟨fun h => ⟨h.size, h.handed, h.single, h.exclusive⟩, fun ⟨size, handed, single, exclusive⟩ => ⟨size, handed, single, exclusive⟩⟩

theorem messageKeys_congr {d d' : Delivery} (h : d'.queue = d.queue) : d'.messageKeys = d.messageKeys := by
  rw [Delivery.messageKeys, h]; rfl

/-- The queue stands, no entry loses HANDED, and none with HANDED gets DUE. -/
theorem DeliverySound.same {s t : State} (h : DeliverySound s) (queue : t.delivery.queue = s.delivery.queue)
    (handed : ∀ k, s.store.carries (fun p => p.handed) k → t.store.carries (fun p => p.handed) k)
    (exclusive : s.store.allPins (fun p => ¬ (p.due = true ∧ p.handed = true)) →
      t.store.allPins fun p => ¬ (p.due = true ∧ p.handed = true)) : DeliverySound t := by
  obtain ⟨size, references, single, apart⟩ := deliverySound_iff.mp h
  rw [deliverySound_iff, messageKeys_congr queue, queue]
  exact ⟨size, fun k mem => handed k (references k mem), single, exclusive apart⟩

theorem DeliverySound.store {s t : State} (h : DeliverySound s) (queue : t.delivery.queue = s.delivery.queue)
    (store : t.store = s.store) : DeliverySound t :=
  h.same queue (by rw [store]; exact fun _ => id) (by rw [store]; exact id)

/-- The head record leaves, and HANDED its entry. -/
theorem DeliverySound.dropRecord {s t : State} (h : DeliverySound s) (r : Record) (rest : List Record)
    (head : s.delivery.queue = r :: rest) (queue : t.delivery.queue = rest) (store : t.store = s.store.afterDrop r) :
    DeliverySound t := by
  obtain ⟨size, references, single, apart⟩ := deliverySound_iff.mp h
  rw [head] at size
  have keys : s.delivery.messageKeys = ({ s.delivery with queue := [r] } : Delivery).messageKeys ++ t.delivery.messageKeys := by
    simp only [Delivery.messageKeys, head, queue, ← List.filterMap_append]
    rfl
  rw [keys] at references single
  obtain ⟨-, single, apartKeys⟩ := List.nodup_append.mp single
  refine deliverySound_iff.mpr ⟨?_, fun k mem => ?_, single, store ▸ apart.afterDrop r fun q => by simp⟩
  · rw [queue]; exact Nat.le_of_succ_le size
  · have held := references k (List.mem_append.mpr (.inr mem))
    rw [store]
    cases r with
    | lost => exact held
    | restart => exact held
    | message j =>
      refine held.clearHanded j fun eq => ?_
      exact absurd eq.symm (apartKeys j (by simp [Delivery.messageKeys]) k mem)

theorem DeliverySound.claims {s t : State} (claims : Claims s t) (h : DeliverySound s) : DeliverySound t := by
  induction claims with
  | refl => exact h
  | trans _ _ one two => exact two (one h)
  | other keeps => exact h.store (keeps.queue (by decide)) (keeps.store (by decide))
  | quit keeps _ _ ih => exact ih (h.store (keeps.queue (by decide)) (keeps.store (by decide)))
  | makeDuty _ k _ _ _ _ keeps _ store =>
    exact h.same (keeps.queue (by decide)) (fun j held => by rw [store]; exact held.pinTx k fun _ p => p)
      fun all => by rw [store]; exact all.pinTx k fun _ p => p
  | endDuty _ x _ keeps _ store =>
    exact h.same (keeps.queue (by decide)) (fun j held => by rw [store]; exact held.clearTx x.key fun _ _ p => p)
      fun all => by rw [store]; exact all.clearPin x.key _ _ fun _ p => p
  | turnDuty _ _ _ _ _ _ _ _ keeps => exact h.store (keeps.queue (by decide)) (keeps.store (by decide))
  | ripen _ _ _ _ keeps => exact h.store (keeps.queue (by decide)) (keeps.store (by decide))
  | dropRecord r rest head _ _ queue store => exact h.dropRecord r rest head queue store
  | turnHead _ _ _ _ _ keeps => exact h.store (keeps.queue (by decide)) (keeps.store (by decide))
  | @endHead s t x _ _ keeps _ store =>
    exact h.same (keeps.queue (by decide)) (fun j held => by rw [store]; exact held.clearTx (s.ownKey x.seq) fun _ _ p => p)
      fun all => by rw [store]; exact all.clearPin (s.ownKey x.seq) _ _ fun _ p => p

theorem DeliverySound.heard {s t : State} (heard : Heard s t) (h : DeliverySound s) : DeliverySound t := by
  induction heard with
  | refl => exact h
  | trans _ _ one two => exact two (one h)
  | other keeps => exact h.store (keeps.queue (by decide)) (keeps.store (by decide))
  | insert e peer pins _ keeps _ store =>
    exact h.same (keeps.queue (by decide))
      (fun j held => by rw [store]; exact held.insert peer fun q handed => not_isEmpty_of_pinned (.inl handed))
      fun all => by rw [store]; exact all.insert peer (by simp [pins.1])
  | withhold o epoch _ keeps _ store =>
    exact h.same (keeps.queue (by decide)) (fun j held => by rw [store]; exact held.restartRelease o epoch fun _ p => p)
      fun all => by
        rw [store]
        exact all.mapEntries _ fun e holds => by split <;> simp_all

/-! ### A turn -/

/-- The lost run is read from the contexts and the store. -/
theorem lostRun_withDelivery (s : State) (d : Delivery) (o : Station) (fuel : Nat) (n : SeqNum) :
    (s.withDelivery d).lostRun o fuel n = s.lostRun o fuel n := by
  induction fuel generalizing n with
  | zero => rfl
  | succ fuel ih =>
    simp only [State.lostRun, ih]
    rfl

/-- The record that context `o` is ready for (R94 to R96). -/
def State.readyRecord (s : State) (o : Station) : List Record :=
  match s.ready o with
  | .message => [.message (s.keyOf o (s.ctx o).nextDue)]
  | .lost =>
    [.lost o (s.ctx o).epoch (s.ctx o).nextDue (s.lostRun o (min (s.ctx o).extent Config.maxLost) (s.ctx o).nextDue)]
  | .restart => [.restart o (s.ctx o).restartOldEpoch (s.ctx o).epoch (s.ctx o).restartCount]
  | .no => []

/-- At a turn the record that the context is ready for joins the queue. -/
theorem serve_queue (s : State) (o : Station) : (s.serve o).delivery.queue = s.delivery.queue ++ s.readyRecord o := by
  cases ready : s.ready o with
  | message =>
    simp only [State.serve, State.readyRecord, ready]
    have before (st : Store) : ((s.withDelivery { s.delivery with lastServed := o }).applyStore st).delivery.queue =
        s.delivery.queue := by rw [applyStore_only (s.withDelivery _) st .delivery (by decide)]; rfl
    exact (congrArg Delivery.queue (advance_only _ _ _ .delivery (by decide))).trans (congrArg (· ++ [_]) (before _))
  | lost =>
    simp only [State.serve, State.readyRecord, ready]
    have run := lostRun_withDelivery s { s.delivery with lastServed := o } o (min (s.ctx o).extent Config.maxLost) (s.ctx o).nextDue
    exact (congrArg Delivery.queue (advance_only _ _ _ .delivery (by decide))).trans
      (congrArg (fun n => s.delivery.queue ++ [Record.lost o (s.ctx o).epoch (s.ctx o).nextDue n]) run)
  | restart =>
    simp only [State.serve, State.readyRecord, ready]
    rfl
  | no =>
    simp only [State.serve, State.readyRecord, ready]
    exact (List.append_nil _).symm

theorem serve_messageKeys (s : State) (o : Station) : (s.serve o).delivery.messageKeys = s.delivery.messageKeys ++
    if s.ready o = .message then [s.keyOf o (s.ctx o).nextDue] else [] := by
  rw [Delivery.messageKeys, serve_queue, List.filterMap_append, State.readyRecord]
  cases s.ready o <;> rfl

theorem serve_length (s : State) (o : Station) : (s.serve o).delivery.queue.length ≤ s.delivery.queue.length + 1 := by
  rw [serve_queue, List.length_append, State.readyRecord]
  cases s.ready o <;> simp

/-- A peer context is ready for a MESSAGE while next-due is deliverable (R91). -/
theorem ready_message {s : State} {o : Station} (ready : s.ready o = .message) (notOwn : (s.ctx o).state ≠ .own) :
    s.store.deliverable (s.keyOf o (s.ctx o).nextDue) = true := by
  unfold State.ready at ready
  dsimp only at ready
  split at ready
  · cases ready
  · rename_i own; exact absurd own notOwn
  · split at ready
    · cases ready
    · split at ready
      · assumption
      · split at ready <;> cases ready

/-- What is handed is deliverable (R94). -/
theorem deliverable_of_ready {s : State} (store : StoreSound s) (contexts : ContextsSound s) (submission : SubmissionSound s)
    (own : OwnContextSound s) {o : Station} (ready : s.ready o = .message) :
    s.store.deliverable (s.keyOf o (s.ctx o).nextDue) = true := by
  by_cases isOwn : (s.ctx o).state = .own
  · have eq := (contexts.ownState o).mp isOwn
    subst eq
    have view := (ownView_iff store).mp own
    obtain ⟨-, reach⟩ := ready_of_own isOwn (by rw [ready]; nofun)
    obtain ⟨on, some, -⟩ := view.ready submission reach
    have first := own.deliverable on 0 some
    rw [show (s.ctx s.stn).nextDue + BitVec.ofNat 16 0 = (s.ctx s.stn).nextDue by simp] at first
    rwa [State.keyOf, own.epoch]
  · exact ready_message ready isOwn

theorem DeliverySound.serve {s : State} {o : Station} (store : StoreSound s) (contexts : ContextsSound s)
    (submission : SubmissionSound s) (own : OwnContextSound s) (h : DeliverySound s)
    (room : s.delivery.queue.length < Config.deliverySize) : DeliverySound (s.serve o) := by
  obtain ⟨-, references, single, apart⟩ := deliverySound_iff.mp h
  have size := Nat.le_trans (serve_length s o) room
  by_cases message : s.ready o = .message
  · have deliverable := deliverable_of_ready store contexts submission own message
    have keys := serve_messageKeys s o
    have after := serve_store s o
    rw [if_pos message] at keys after
    generalize s.keyOf o (s.ctx o).nextDue = k at *
    obtain ⟨e, mem, key, due⟩ := (Store.deliverable_iff store.keys k).mp deliverable
    have found := Store.find_of_mem store.keys mem
    rw [key] at found
    have hand : s.store.hand k = (.handed, s.store.mapPins k fun p => { p with due := false, handed := true }) := by
      rw [Store.hand, found]
      exact if_pos due
    have kept {j : Key} (held : s.store.carries (fun p => p.handed) j) : (s.serve o).store.carries (fun p => p.handed) j := by
      rw [after]; exact held.hand k fun _ _ _ => rfl
    have fresh : k ∉ s.delivery.messageKeys := fun inQueue => by
      obtain ⟨x, memx, keyx, handed⟩ := references k inQueue
      have same := Store.find_of_mem store.keys memx
      rw [keyx, found] at same
      cases same
      exact apart e mem ⟨due, handed⟩
    rw [deliverySound_iff, keys]
    refine ⟨size, fun j mem' => ?_, ?_, ?_⟩
    · rcases List.mem_append.mp mem' with mem' | mem'
      · exact kept (references j mem')
      · rw [List.mem_singleton.mp mem', after, hand, Store.carries, Store.mapPins, Store.mapEntries_all]
        exact ⟨_, List.mem_map_of_mem mem, by simp [key]⟩
    · exact List.nodup_append.mpr ⟨single, by simp, fun j inQueue i one => by
        rw [List.mem_singleton.mp one]
        exact fun eq => fresh (eq ▸ inQueue)⟩
    · rw [after]
      exact apart.hand k fun q _ => by simp
  · have keys := serve_messageKeys s o
    have after := serve_store s o
    rw [if_neg message] at keys after
    rw [deliverySound_iff, keys, after, List.append_nil]
    exact ⟨size, references, single, apart⟩

theorem deliverySound_exec {c : Instr} {s t : State} (e : exec c s = .next t) (mode : ModeSound s) (store : StoreSound s)
    (contexts : ContextsSound s) (submission : SubmissionSound s) (own : OwnContextSound s) (h : DeliverySound s) :
    DeliverySound t := by
  refine exec_keeps e mode (fun _ _ _ heard h => h.heard heard) (fun _ _ claims h => h.claims claims)
    (fun _ _ fresh _ => fresh.deliverySound) (fun _ _ _ _ h => h.store rfl rfl) (fun s _ h => ?_) (fun w wend _ => ?_)
    (fun o room _ => h.serve store contexts submission own room) h
  · have only := acceptJoin_only s
    exact h.store (congrArg Delivery.queue (only .delivery (by decide))) (only .store (by decide))
  · have taken := takeDataWord_taken s w wend
    have delivery : (s.takeDataWord w wend).delivery = s.delivery := takeDataWord_only s w wend .delivery (by decide)
    exact h.same (congrArg Delivery.queue delivery)
      (fun _ held => taken.carries (fun _ handed => not_isEmpty_of_pinned (.inl handed)) held)
      fun all => taken.allPins all (by simp [State.completionPins])

/-- Settles O17: only a hand claim makes a MESSAGE record, of an entry with DUE, and only its leaving the queue clears HANDED. -/
theorem deliveryStaysSound : Obligations.DeliveryStaysSound := fun _ _ e mode store contexts submission own h =>
  step_keeps
    (P := fun s => ModeSound s ∧ StoreSound s ∧ ContextsSound s ∧ SubmissionSound s ∧ OwnContextSound s ∧ DeliverySound s)
    (fun _ l h =>
      have ⟨mode, store, contexts, submission, own, delivery⟩ := h
      ⟨withPending_mode l mode, store.withPending l, ⟨contexts.ownState, contexts.unsynced, contexts.bounded, contexts.due⟩,
        submission.withPending l, (ownView_iff (store.withPending l)).mpr (((ownView_iff store).mp own).withPending l),
        delivery.store rfl rfl⟩)
    (fun _ ⟨_, _, _, _, _, h⟩ => h)
    (fun _ _ _ e ⟨mode, store, contexts, submission, own, h⟩ => deliverySound_exec e mode store contexts submission own h) e
    ⟨mode, store, contexts, submission, own, h⟩

end Sys2Proof.Machine
end

section
/-! The claims of the Retention Store, answer by answer (O20, O21, O22), and the reports they bring to the trackers (O23). -/

open Sys2Proof

namespace Sys2Proof.Machine

set_option Elab.async false

/-! ### Placement and reservation -/

theorem placeEntry_free {free : Nat} (h : 0 < free) (es : List Entry) (e : Entry) :
    placeEntry free es e = (.stored none, es ++ [e]) := if_pos h

theorem placeEntry_evicts {free : Nat} (h : free = 0) {es older younger : List Entry} {v : Entry} (split : es = older ++ v :: younger)
    (pinned : ∀ x ∈ older, x.pins.isEmpty = false) (empty : v.pins.isEmpty = true) (e : Entry) :
    placeEntry free es e = (.stored (some v.key), older ++ younger ++ [e]) := by
  rw [placeEntry, if_neg (by omega), evictOldest_eq_some.mpr ⟨older, younger, split, rfl, pinned, empty⟩]

theorem placeEntry_refused {free : Nat} {es : List Entry} (h : free + unpinned es = 0) (e : Entry) :
    placeEntry free es e = (.refused, es) := by
  rw [placeEntry, if_neg (by omega), evictOldest_eq_none_iff_unpinned.mpr (by omega)]

theorem insert_present {st : Store} {e x : Entry} (found : st.find e.key = some x) (stn : Station) (share : Nat) :
    st.insert stn share e = (.present x.pins, st) := by rw [Store.insert, found]

theorem insert_absent_peer {st : Store} {e : Entry} (absent : ∀ x ∈ st.own ++ st.peer, x.key ≠ e.key) {stn : Station}
    (peer : e.key.origin ≠ stn) (share : Nat) : st.insert stn share e =
      ((placeEntry (st.peerFree share) st.peer e).1, { st with peer := (placeEntry (st.peerFree share) st.peer e).2 }) := by
  rw [Store.insert, Store.find_eq_none.mpr absent]
  exact if_neg peer

theorem insert_absent_own {st : Store} {e : Entry} (absent : ∀ x ∈ st.own ++ st.peer, x.key ≠ e.key) {stn : Station}
    (own : e.key.origin = stn) (share : Nat) : st.insert stn share e =
      ((placeEntry (st.ownFree share) st.own e).1, { st with own := (placeEntry (st.ownFree share) st.own e).2 }) := by
  rw [Store.insert, Store.find_eq_none.mpr absent]
  exact if_pos own

/-- Settles O20: the insert claim places the entry in the share its origin gives. -/
theorem insertClaimDecides : Obligations.InsertClaimDecides := by
  intro stn share st e
  refine ⟨fun x found => insert_present found stn share, fun absent peer => ?_, fun absent own => ?_⟩
  · rw [insert_absent_peer absent peer]
    refine ⟨fun free => ?_, fun full older younger v split pinned empty => ?_, fun none => ?_⟩
    · rw [placeEntry_free free]
    · rw [placeEntry_evicts full split pinned empty]
    · rw [placeEntry_refused none]
  · rw [insert_absent_own absent own]
    refine ⟨fun free => ?_, fun full older younger v split pinned empty => ?_, fun none => ?_⟩
    · rw [placeEntry_free free]
    · rw [placeEntry_evicts full split pinned empty]
    · rw [placeEntry_refused none]

/-- A reservation takes one claimable cell (R13). -/
theorem reserve_claimable {share : Nat} {st st' : Store} (h : st.reserve share = some st') :
    st'.ownClaimable share + 1 = st.ownClaimable share := by
  obtain ⟨none, some, -, ⟨free, own⟩ | ⟨full, v, evict⟩⟩ := Store.reserve_eq_some h
  · simp only [Store.ownClaimable, Store.ownFree, Store.reservedCells, own, some, none] at free ⊢
    simp at free ⊢
    omega
  · have counts := evictOldest_counts evict
    simp only [Store.ownClaimable, Store.ownFree, Store.reservedCells, some, none] at full ⊢
    simp at full ⊢
    omega

theorem complete_of_none {st : Store} (h : st.reserved = none) (k : Key) (pins : Pins) :
    st.complete k pins = (.noneReserved, st) := by rw [Store.complete, h]

theorem complete_of_present {st : Store} {bytes : List Byte} (h : st.reserved = some bytes) {k : Key}
    (present : ∃ x ∈ st.own ++ st.peer, x.key = k) (pins : Pins) :
    st.complete k pins = (.present, { st with reserved := none }) := by
  rw [Store.complete, h]
  exact if_pos (Store.present_iff.mpr present)

theorem complete_of_absent {st : Store} {bytes : List Byte} (h : st.reserved = some bytes) {k : Key}
    (absent : ∀ x ∈ st.own ++ st.peer, x.key ≠ k) (pins : Pins) : st.complete k pins =
      (.stored, { st with own := st.own ++ [{ key := k, payload := bytes, pins := pins }], reserved := none }) := by
  rw [Store.complete, h]
  refine if_neg fun present => ?_
  obtain ⟨x, mem, key⟩ := Store.present_iff.mp present
  exact absent x mem key

theorem reserve_of_none {st : Store} (h : st.reserved = none) (share : Nat) : st.reserve share =
    if 0 < st.ownFree share then some { st with reserved := some [] }
    else (evictOldest st.own).map fun r => { st with own := r.2, reserved := some [] } := by
  rw [Store.reserve, h]
  simp only [Option.isSome_none, Bool.false_eq_true, if_false]
  split
  · rfl
  · cases evictOldest st.own <;> rfl

/-- Settles O21: a reservation needs a claimable own cell, a completion and a release the RESERVED one. -/
theorem reservationClaimsDecide : Obligations.ReservationClaimsDecide := by
  intro share st
  refine ⟨fun some => if_pos some, fun none => ⟨fun free => ?_, fun full older younger v split pinned empty => ?_, fun few => ?_⟩,
    fun st' => reserve_claimable, fun k pins => ⟨fun none => complete_of_none none k pins, fun bytes some =>
      ⟨fun present => complete_of_present some present pins, fun absent => complete_of_absent some absent pins⟩⟩,
    fun none => by rw [Store.release, none], fun bytes some => by rw [Store.release, some]⟩
  · rw [reserve_of_none none, if_pos free]
  · rw [reserve_of_none none, if_neg (by omega), evictOldest_eq_some.mpr ⟨older, younger, split, rfl, pinned, empty⟩]
    rfl
  · have : st.ownFree share + unpinned st.own = 0 := few
    rw [reserve_of_none none, if_neg (by omega), evictOldest_eq_none_iff_unpinned.mpr (by omega)]
    rfl

/-! ### Pins, lookups and reads -/

theorem pinTx_absent {st : Store} {k : Key} (h : st.find k = none) : st.pinTx k = (.absent, st) := by rw [Store.pinTx, h]

theorem hand_absent {st : Store} {k : Key} (h : st.find k = none) : st.hand k = (.absent, st) := by rw [Store.hand, h]

theorem clearPin_absent {st : Store} {k : Key} (h : st.find k = none) (carried : Pins → Bool) (remove : Pins → Pins) :
    st.clearPin k carried remove = (.absent, st) := by rw [Store.clearPin, h]

section Present

variable {st : Store} {k : Key} {e : Entry} (found : st.find k = some e)

include found

/-- The index maps a key whose pins changed to the entry with the changed pins. -/
theorem find_mapPins_self (f : Pins → Pins) : (st.mapPins k f).find k = some { e with pins := f e.pins } := by
  rw [Store.find_mapPins, if_pos rfl, found]
  rfl

theorem pinTx_already (tx : e.pins.tx = true) : st.pinTx k = (.already, st) := by
  rw [Store.pinTx, found]
  exact if_pos tx

theorem pinTx_pins (tx : e.pins.tx = false) : st.pinTx k = (.pinned, st.mapPins k fun p => { p with tx := true }) := by
  rw [Store.pinTx, found]
  exact if_neg (by simp [tx])

theorem hand_hands (due : e.pins.due = true) :
    st.hand k = (.handed, st.mapPins k fun p => { p with due := false, handed := true }) := by
  rw [Store.hand, found]
  exact if_pos due

theorem hand_notDue (due : e.pins.due = false) : st.hand k = (.notDue, st) := by
  rw [Store.hand, found]
  exact if_neg (by simp [due])

theorem clearPin_clears {carried : Pins → Bool} (pin : carried e.pins = true) (remove : Pins → Pins) :
    st.clearPin k carried remove = (.cleared, st.mapPins k remove) := by
  rw [Store.clearPin, found]
  exact if_pos pin

theorem clearPin_notCarried {carried : Pins → Bool} (pin : carried e.pins = false) (remove : Pins → Pins) :
    st.clearPin k carried remove = (.notCarried, st) := by
  rw [Store.clearPin, found]
  exact if_neg (by simp [pin])

end Present

/-- The index after a restart release (R17). -/
theorem find_restartRelease (st : Store) (o : Station) (epoch : Epoch) (k : Key) :
    (st.restartRelease o epoch).find k = if k.origin = o ∧ k.epoch = epoch then
      (st.find k).map fun e => { e with pins := { e.pins with due := false } } else st.find k := by
  rw [Store.restartRelease, Store.find_mapEntries _ _ (by intro e; split <;> rfl)]
  cases found : st.find k with
  | none => simp
  | some e =>
    obtain ⟨-, key⟩ := Store.find_eq_some found
    by_cases h : k.origin = o ∧ k.epoch = epoch <;> simp [key, h]

theorem hand_after_release {st : Store} {k : Key} {e : Entry} (found : st.find k = some e) :
    (st.restartRelease k.origin k.epoch).hand k = (.notDue, st.restartRelease k.origin k.epoch) := by
  have after := find_restartRelease st k.origin k.epoch k
  rw [if_pos ⟨rfl, rfl⟩, found] at after
  exact hand_notDue after rfl

/-- A claim on the pins of `k` leaves the index at every other key. -/
theorem find_mapPins_other {st : Store} {k k' : Key} (ne : k' ≠ k) (f : Pins → Pins) : (st.mapPins k f).find k' = st.find k' := by
  rw [Store.find_mapPins, if_neg ne]

/-- What the claims on pins leave: order, payloads, the RESERVED cell and other keys. -/
theorem pinClaim_keeps {st st' : Store} {k : Key} (h : st' = st ∨ ∃ f : Pins → Pins, st' = st.mapPins k f) :
    st'.own.map (fun e => (e.key, e.payload)) = st.own.map (fun e => (e.key, e.payload)) ∧
      st'.peer.map (fun e => (e.key, e.payload)) = st.peer.map (fun e => (e.key, e.payload)) ∧
      st'.reserved = st.reserved ∧ ∀ k' : Key, k' ≠ k → st'.find k' = st.find k' := by
  obtain rfl | ⟨f, rfl⟩ := h
  · exact ⟨rfl, rfl, rfl, fun _ _ => rfl⟩
  · have ⟨own, peer, reserved⟩ := PinsOnly.mapPins st k f
    exact ⟨own, peer, reserved, fun k' ne => find_mapPins_other ne f⟩

theorem pinTx_claim (st : Store) (k : Key) : (st.pinTx k).2 = st ∨ ∃ f : Pins → Pins, (st.pinTx k).2 = st.mapPins k f := by
  rcases st.pinTx_cases k with h | h | h <;> rw [h]
  · exact .inl rfl
  · exact .inl rfl
  · exact .inr ⟨fun p => { p with tx := true }, rfl⟩

theorem hand_claim (st : Store) (k : Key) : (st.hand k).2 = st ∨ ∃ f : Pins → Pins, (st.hand k).2 = st.mapPins k f := by
  rcases st.hand_cases k with h | h | h <;> rw [h]
  · exact .inl rfl
  · exact .inl rfl
  · exact .inr ⟨fun p => { p with due := false, handed := true }, rfl⟩

theorem clearPin_claim (st : Store) (k : Key) (carried : Pins → Bool) (remove : Pins → Pins) :
    (st.clearPin k carried remove).2 = st ∨ ∃ f : Pins → Pins, (st.clearPin k carried remove).2 = st.mapPins k f := by
  rcases st.clearPin_cases k carried remove with h | h | h <;> rw [h]
  · exact .inl rfl
  · exact .inl rfl
  · exact .inr ⟨remove, rfl⟩

theorem lookup_own {st : Store} {k : Key} {e : Entry} (found : st.find k = some e) (own : ∃ x ∈ st.own, x.key = k) :
    st.lookup k = .present e.payload.length .own e.pins := by
  have share : st.shareOf k = .own := by simpa [Store.shareOf] using own
  rw [(Store.lookup_of_find found).1, share]

theorem lookup_peer {st : Store} {k : Key} {e : Entry} (found : st.find k = some e) (peer : ∀ x ∈ st.own, x.key ≠ k) :
    st.lookup k = .present e.payload.length .peer e.pins := by
  have share : st.shareOf k = .peer := by simpa [Store.shareOf] using peer
  rw [(Store.lookup_of_find found).1, share]

/-- Settles O22: each pin claim answers by the pin the entry carries, and changes that pin alone. -/
theorem pinClaimsChangeOnePin : Obligations.PinClaimsChangeOnePin := by
  intro st k
  refine ⟨fun absent => ?_, fun e found => ?_, fun st' claim => pinClaim_keeps ?_, fun o epoch => ?_⟩
  · obtain ⟨lookup, read, -⟩ := Store.lookup_of_absent absent
    exact ⟨pinTx_absent absent, hand_absent absent, clearPin_absent absent _ _, clearPin_absent absent _ _, lookup, read⟩
  · refine ⟨pinTx_already found, fun tx => ?_, fun due => ?_, hand_notDue found, hand_after_release found, fun handed => ?_,
      fun handed => clearPin_notCarried found handed _, fun tx => ?_, fun tx => clearPin_notCarried found tx _,
      lookup_own found, lookup_peer found, (Store.lookup_of_find found).2.1⟩
    · rw [pinTx_pins found tx]
      exact ⟨rfl, find_mapPins_self found _⟩
    · rw [hand_hands found due]
      exact ⟨rfl, find_mapPins_self found _⟩
    · rw [Store.clearHanded, clearPin_clears found handed]
      exact ⟨rfl, find_mapPins_self found _⟩
    · rw [Store.clearTx, clearPin_clears found tx]
      exact ⟨rfl, find_mapPins_self found _⟩
  · rcases claim with rfl | rfl | rfl | rfl
    · exact pinTx_claim st k
    · exact hand_claim st k
    · exact clearPin_claim st k _ _
    · exact clearPin_claim st k _ _
  · have ⟨own, peer, reserved⟩ := PinsOnly.restartRelease st o epoch
    exact ⟨find_restartRelease st o epoch, own, peer, reserved⟩

/-! ### The reports -/

/-- The exhausted report takes the tracker's pending request from the list (R68). -/
def Tracker.parksRequest (tr : Tracker) : Bool := (tr.state == .delay || tr.state == .wait) && tr.marker == .pending

/-- The Scheduler when the pending requests of the trackers in `l` have left the list (R131). -/
def State.schedWithout (s : State) (l : List (Fin 8)) : Scheduler :=
  if s.sched.state = .holdoff ∧
      ∃ i ∈ l, s.sched.commitment.map (fun c => c.duty) = some (.gapreq i) ∧ (s.tracker i).parksRequest = true then
    s.sched.released
  else s.sched

theorem park_tracker (s : State) (i j : Fin 8) :
    (s.park i).tracker j = if j = i then (s.tracker i).afterExhausted else s.tracker j := by
  unfold State.park Tracker.afterExhausted
  dsimp only
  split
  · split <;> simp [State.tracker_setTracker]
  · split
    · rename_i eq; rw [eq]
    · rfl

theorem parksRequest_iff (tr : Tracker) :
    tr.parksRequest = true ↔ (tr.state = .delay ∨ tr.state = .wait) ∧ tr.marker = .pending := by simp [Tracker.parksRequest]

theorem parksRequest_eq_false {tr : Tracker} (h : ¬ ((tr.state = .delay ∨ tr.state = .wait) ∧ tr.marker = .pending)) :
    tr.parksRequest = false := by rwa [← parksRequest_iff, Bool.not_eq_true] at h

theorem park_requests (s : State) (i : Fin 8) : (s.park i).pool.requests =
    s.pool.requests.filter fun r => !(r.tracker == i && (s.tracker i).parksRequest) := by
  unfold State.park
  dsimp only
  split
  · rename_i serves
    split
    · rename_i pending
      rw [withdraw_pool, requests_dropRequest, (parksRequest_iff _).mpr ⟨serves, pending⟩]
      simp only [Bool.and_true]
      rfl
    · rename_i other
      simp [parksRequest_eq_false fun h => other h.2]
  · rename_i idle
    simp [parksRequest_eq_false fun h => idle h.1]

theorem park_sched (s : State) (i : Fin 8) : (s.park i).sched = s.schedWithout [i] := by
  have alone : s.schedWithout [i] = if s.sched.state = .holdoff ∧ s.sched.commitment.map (fun c => c.duty) = some (.gapreq i) ∧
      (s.tracker i).parksRequest = true then s.sched.released else s.sched := by simp [State.schedWithout]
  unfold State.park
  dsimp only
  rw [alone]
  split
  · rename_i serves
    split
    · rename_i pending
      rw [withdraw_sched, (parksRequest_iff _).mpr ⟨serves, pending⟩]
      refine if_congr (and_congr_right fun _ => ?_) rfl rfl
      rw [and_iff_left rfl]
      exact Iff.rfl
    · rename_i other
      rw [if_neg (by simp [parksRequest_eq_false fun h => other h.2])]
      rfl
  · rename_i idle
    simp [parksRequest_eq_false fun h => idle h.1]

theorem allTrackers_nodup : allTrackers.Nodup := List.nodup_finRange 8

theorem mem_allTrackers (i : Fin 8) : i ∈ allTrackers := List.mem_finRange i

/-- Trackers parked one after another. -/
theorem parkAll {l : List (Fin 8)} (nodup : l.Nodup) (s : State) :
    (∀ j, (l.foldl State.park s).tracker j = if j ∈ l then (s.tracker j).afterExhausted else s.tracker j) ∧
      (l.foldl State.park s).pool.requests =
        s.pool.requests.filter (fun r => !(l.contains r.tracker && (s.tracker r.tracker).parksRequest)) ∧
      (l.foldl State.park s).sched = s.schedWithout l := by
  induction l generalizing s with
  | nil => exact ⟨fun _ => rfl, by simp, by simp [State.schedWithout]⟩
  | cons i l ih =>
    obtain ⟨out, nodup⟩ := List.nodup_cons.mp nodup
    obtain ⟨tracker, requests, sched⟩ := ih nodup (s.park i)
    have other {j : Fin 8} (mem : j ∈ l) : (s.park i).tracker j = s.tracker j := by
      rw [park_tracker, if_neg (ne_of_mem_of_not_mem mem out)]
    refine ⟨fun j => ?_, ?_, ?_⟩
    · rw [List.foldl_cons, tracker]
      by_cases mem : j ∈ l
      · rw [if_pos mem, if_pos (.tail _ mem), other mem]
      · rw [if_neg mem, park_tracker]
        by_cases eq : j = i <;> simp [eq, mem]
    · rw [List.foldl_cons, requests, park_requests, List.filter_filter]
      refine List.filter_congr fun r _ => ?_
      by_cases eq : r.tracker = i
      · simp [eq, out]
      · by_cases mem : r.tracker ∈ l
        · simp [eq, mem, other mem]
        · simp [eq, mem]
    · rw [List.foldl_cons, sched]
      unfold State.schedWithout
      rw [park_sched, State.schedWithout]
      by_cases here : s.sched.state = .holdoff ∧
          ∃ j ∈ [i], s.sched.commitment.map (fun c => c.duty) = some (.gapreq j) ∧ (s.tracker j).parksRequest = true
      · rw [if_pos here, if_neg (by simp [Scheduler.released]), if_pos]
        obtain ⟨holdoff, j, mem, duty⟩ := here
        rw [List.mem_singleton.mp mem] at duty
        exact ⟨holdoff, i, by simp, duty⟩
      · rw [if_neg here]
        refine if_congr (and_congr_right fun holdoff => ?_) rfl rfl
        constructor
        · rintro ⟨j, mem, duty, parks⟩
          exact ⟨j, .tail _ mem, duty, other mem ▸ parks⟩
        · rintro ⟨j, mem, duty⟩
          rcases List.mem_cons.mp mem with rfl | mem
          · exact absurd ⟨holdoff, j, by simp, duty⟩ here
          · exact ⟨j, mem, duty.1, (other mem).symm ▸ duty.2⟩

/-- The exhausted report at every tracker, the request list and the Scheduler (R68, R131). -/
theorem exhaustedReport_parks (s : State) :
    (∀ j, s.exhaustedReport.tracker j = (s.tracker j).afterExhausted) ∧
      s.exhaustedReport.pool.requests = s.pool.requests.filter (fun r => !(s.tracker r.tracker).parksRequest) ∧
      s.exhaustedReport.sched = s.schedWithout allTrackers := by
  obtain ⟨tracker, requests, sched⟩ := parkAll allTrackers_nodup s
  unfold State.exhaustedReport
  refine ⟨fun j => ?_, ?_, sched⟩
  · rw [tracker, if_pos (mem_allTrackers j)]
  · rw [requests]
    refine List.filter_congr fun r _ => ?_
    rw [List.contains_iff_mem.mpr (mem_allTrackers r.tracker), Bool.true_and]

theorem resume_tracker (s : State) (i j : Fin 8) : (s.resume i).tracker j =
    if j = i then (s.tracker i).afterClaimable (s.requestDelay (s.tracker i).origin) else s.tracker j := by
  unfold State.resume Tracker.afterClaimable
  dsimp only
  split
  · rw [State.tracker_setTracker]
  · split
    · rename_i eq; rw [eq]
    · rfl

/-- A resumed tracker's request delay is reckoned from what no report changes. -/
theorem requestDelay_congr {s t : State} (h : t.station = s.station) (o : Station) : t.requestDelay o = s.requestDelay o := by
  rw [State.requestDelay, State.requestDelay, State.setup, State.setup, State.stn, State.stn, h]

theorem resumeAll {l : List (Fin 8)} (nodup : l.Nodup) (s : State) (j : Fin 8) : (l.foldl State.resume s).tracker j =
    if j ∈ l then (s.tracker j).afterClaimable (s.requestDelay (s.tracker j).origin) else s.tracker j := by
  induction l generalizing s with
  | nil => rfl
  | cons i l ih =>
    obtain ⟨out, nodup⟩ := List.nodup_cons.mp nodup
    rw [List.foldl_cons, ih nodup, requestDelay_congr (resume_only s i .station (by decide)), resume_tracker]
    by_cases eq : j = i
    · subst eq
      simp [out]
    · simp [eq]

theorem claimableReport_resumes (s : State) (j : Fin 8) :
    s.claimableReport.tracker j = (s.tracker j).afterClaimable (s.requestDelay (s.tracker j).origin) := by
  rw [State.claimableReport, resumeAll allTrackers_nodup s j, if_pos (mem_allTrackers j)]

theorem claimableReport_requests (s : State) : s.claimableReport.pool.requests = s.pool.requests := by
  have fold (l : List (Fin 8)) (s : State) : (l.foldl State.resume s).pool.requests = s.pool.requests := by
    induction l generalizing s with
    | nil => rfl
    | cons i l ih =>
      rw [List.foldl_cons, ih]
      unfold State.resume
      dsimp only
      split <;> rfl
  rw [State.claimableReport, fold]

/-- What a claim brings: the exhausted report, the claimable report, or none (R20). -/
theorem applyStore_cases (s : State) (st : Store) :
    ((s.peerClaimable = 0 ↔ (s.withStore st).peerClaimable = 0) → s.applyStore st = s.withStore st) ∧
      (s.peerClaimable ≠ 0 → (s.withStore st).peerClaimable = 0 → s.applyStore st = (s.withStore st).exhaustedReport) ∧
      (s.peerClaimable = 0 → (s.withStore st).peerClaimable ≠ 0 → s.applyStore st = (s.withStore st).claimableReport) := by
  unfold State.applyStore State.reportFrom
  refine ⟨fun same => ?_, fun some none => if_pos ⟨some, none⟩, fun none some => ?_⟩
  · rw [if_neg fun h => h.1 (same.mpr h.2), if_neg fun h => h.2 (same.mp h.1)]
  · rw [if_neg fun h => h.1 none, if_pos ⟨none, some⟩]

/-- Settles O23: the reports go through the trackers one after another, each changing its own tracker and request alone. -/
theorem storeReportsParkAndResume : Obligations.StoreReportsParkAndResume := by
  intro s st
  obtain ⟨still, exhausts, resumes⟩ := applyStore_cases s st
  have only := applyStore_only s st
  refine ⟨still, fun room none => ?_, fun none room => ?_, applyStore_store s st, only .contexts (by decide), only .duties (by decide),
    only .delivery (by decide), only .submission (by decide), only .station (by decide), only .counters (by decide),
    only .events (by decide)⟩
  · obtain ⟨tracker, requests, sched⟩ := exhaustedReport_parks (s.withStore st)
    rw [exhausts room none]
    refine ⟨tracker, requests, fun i holdoff duty => ?_, fun other => ?_⟩
    · rw [sched, State.schedWithout]
      refine if_congr ⟨?_, fun parks => ⟨holdoff, i, mem_allTrackers i, duty, (parksRequest_iff _).mpr parks⟩⟩ rfl rfl
      rintro ⟨-, j, -, duty', parks⟩
      have same : some (DutyRef.gapreq i) = some (.gapreq j) := duty.symm.trans duty'
      cases same
      exact (parksRequest_iff _).mp parks
    · rw [sched, State.schedWithout]
      refine if_neg ?_
      rintro ⟨holdoff, j, -, duty, -⟩
      exact other.elim (fun no => no holdoff) fun no => no j duty
  · rw [resumes none room]
    exact ⟨claimableReport_resumes (s.withStore st), claimableReport_requests _, claimableReport_only _ .sched (by decide)⟩

end Sys2Proof.Machine
end

section
/-! The data words one by one (O25) and a whole submission (O26). -/

open Sys2Proof

namespace Sys2Proof.Machine

set_option Elab.async false

/-! ### Claims on the own share -/

/-- A claim on the own share leaves the peer share's claimable count, and so reports nothing. -/
theorem applyStore_own {s : State} {st : Store} (peer : st.peer = s.store.peer) : s.applyStore st = s.withStore st := by
  refine (applyStore_cases s st).1 ?_
  have same : (s.withStore st).peerClaimable = s.peerClaimable := by
    change st.peerClaimable s.setup.ownShare = s.store.peerClaimable s.setup.ownShare
    rw [Store.peerClaimable, Store.peerClaimable, Store.peerFree, Store.peerFree, peer]
  rw [same]

theorem rejectSubmission_eq (s : State) (wend : Bool) : s.rejectSubmission wend =
    ((s.withStore { s.store with reserved := none }).raise .submitError).withSubmission
      { s.submission with asm := asmAfterReject wend } := by
  unfold State.rejectSubmission
  rw [applyStore_own (by rw [Store.release_store]), Store.release_store]
  rfl

theorem wordZero_starts {s : State} {w : Word} (low : 1 ≤ w.toNat) (high : w.toNat ≤ 120) {st : Store}
    (reserve : s.store.reserve s.setup.ownShare = some st) : s.wordZero w false =
      (s.withStore st).withSubmission
        { s.submission with asm := .assembling, length := w.toNat, expected := (w.toNat + 1) / 2, taken := 0 } := by
  rw [State.wordZero, if_neg Bool.false_ne_true, if_neg (by simp only [Config.maxPayload]; omega), reserve]
  dsimp only
  rw [applyStore_own (reserve_kept reserve).2.2.1]

/-- With a claimable own cell and none RESERVED a reservation is granted (R13). -/
theorem reserve_granted {share : Nat} {st : Store} (none : st.reserved = none) (room : 1 ≤ st.ownClaimable share) :
    ∃ st', st.reserve share = some st' := by
  rw [reserve_of_none none]
  split
  · exact ⟨_, rfl⟩
  · cases evict : evictOldest st.own with
    | some r => exact ⟨_, rfl⟩
    | none =>
      have few := evictOldest_eq_none_iff_unpinned.mp evict
      unfold Store.ownClaimable at room
      omega

theorem wrdy_iff (s : State) : s.wrdy = true ↔ s.station.state ≠ .setup ∧
    (s.submission.asm ≠ .idle ∨ (1 ≤ s.ownClaimable ∧ s.submission.queue.length < 32)) := by
  simp only [State.wrdy, Submission.inProgress, Bool.and_eq_true, Bool.or_eq_true, bne_iff_ne, decide_eq_true_eq]
  exact Iff.rfl

theorem exec_dataWord_ready {s : State} (released : s.station.mrst = false) (ready : s.wrdy = true) (w : Word) (wend : Bool) :
    exec (.dataWord w wend) s = .next (s.takeDataWord w wend) := by
  change execDataWord w wend s = _
  rw [execDataWord, released, ready]
  rfl

theorem exec_dataWord_ignored {s : State} (released : s.station.mrst = false) (low : s.wrdy = false) (w : Word) (wend : Bool) :
    exec (.dataWord w wend) s = .next (s.raise .portMisuse) := by
  change execDataWord w wend s = _
  rw [execDataWord, released, low]
  rfl

/-! ### Payload words -/

/-- The unit with its next payload word written (R114). -/
def State.withWord (s : State) (w : Word) : State :=
  (s.withStore (s.store.writeReserved (s.submission.bytesOf w))).withSubmission
    { s.submission with taken := s.submission.taken + 1 }

theorem payloadWord_more {s : State} {w : Word} (more : s.submission.taken + 1 < s.submission.expected) (wend : Bool) :
    s.payloadWord w wend = if wend then (s.withWord w).rejectSubmission wend else s.withWord w :=
  if_pos more

theorem payloadWord_last {s : State} {w : Word} (last : s.submission.expected ≤ s.submission.taken + 1) (wend : Bool) :
    s.payloadWord w wend = if wend then (s.withWord w).completeMessage else (s.withWord w).setAsm .awaitingEnd :=
  if_neg (Nat.not_lt.mpr last)

theorem bytesOf_more {u : Submission} (more : u.taken + 1 < u.expected) (w : Word) : u.bytesOf w = [hiByte w, loByte w] :=
  if_neg (by omega)

/-- Settles O25: a word is taken while WRDY is asserted, by the assembly state. -/
theorem dataWordOutcomes : Obligations.DataWordOutcomes := by
  refine ⟨wrdy_iff, fun w wend s released => ⟨fun low => exec_dataWord_ignored released low w wend, fun ready idle => ?_,
    fun ready assembling more => ?_, fun ready assembling last early => ?_, fun ready awaiting => ?_,
    fun ready discarding => ?_⟩⟩
  all_goals rw [exec_dataWord_ready released ready, State.takeDataWord]
  · rw [idle]
    dsimp only
    refine ⟨fun now => ?_, fun early out => ?_, fun early low high none => ?_⟩
    · rw [State.wordZero, if_pos now]
    · rw [State.wordZero, if_neg (by simp [early]), if_pos (show w.toNat = 0 ∨ Config.maxPayload < w.toNat from out)]
      rfl
    · have room : 1 ≤ s.store.ownClaimable s.setup.ownShare := by
        have := ((wrdy_iff s).mp ready).2
        simp only [idle, ne_eq, not_true_eq_false, false_or] at this
        exact this.1
      obtain ⟨st, reserve⟩ := reserve_granted none room
      rw [early]
      exact ⟨st, reserve, by rw [wordZero_starts low high reserve]⟩
  · rw [assembling]
    dsimp only
    rw [payloadWord_more more]
    refine ⟨fun now => ?_, fun early => ?_⟩
    · rw [if_pos now, rejectSubmission_eq, now]
      rfl
    · rw [if_neg (by simp [early]), State.withWord, bytesOf_more more]
      rfl
  · rw [assembling]
    dsimp only
    rw [payloadWord_last (Nat.le_of_eq last.symm), if_neg (by simp [early]), State.withWord, Submission.bytesOf]
    simp only [last, true_and]
    rfl
  · rw [awaiting]
    dsimp only
    rw [rejectSubmission_eq]
    rfl
  · rw [discarding]
    dsimp only
    cases wend
    · exact congrArg (fun u => Host.Outcome.next (s.withSubmission u)) (by rw [← discarding]; rfl)
    · rfl

/-! ### A whole submission -/

/-- The part with `bytes` of a message of `n` bytes in the RESERVED cell, after `taken` payload words. -/
def State.assembled (s : State) (st : Store) (n : Nat) (bytes : List Byte) (taken : Nat) : State :=
  (s.withStore { st with reserved := some bytes }).withSubmission
    { s.submission with asm := .assembling, length := n, expected := (n + 1) / 2, taken := taken }

theorem assembled_withWord (s : State) (st : Store) (n : Nat) (bytes : List Byte) (taken : Nat) (w : Word) :
    (s.assembled st n bytes taken).withWord w =
      s.assembled st n (bytes ++ (s.assembled st n bytes taken).submission.bytesOf w) (taken + 1) := rfl

theorem hiByte_word (a b : Byte) : hiByte (BitVec.ofNat 16 (256 * a.toNat + b.toNat)) = a := by
  refine BitVec.eq_of_toNat_eq ?_
  have := a.isLt
  have := b.isLt
  simp only [hiByte, BitVec.extractLsb'_toNat, BitVec.toNat_ofNat, Nat.shiftRight_eq_div_pow]
  omega

theorem loByte_word (a b : Byte) : loByte (BitVec.ofNat 16 (256 * a.toNat + b.toNat)) = b := by
  refine BitVec.eq_of_toNat_eq ?_
  have := a.isLt
  have := b.isLt
  simp only [loByte, BitVec.extractLsb'_toNat, BitVec.toNat_ofNat, Nat.shiftRight_eq_div_pow]
  omega

theorem execAll_cons {c : Instr} {cs : List Instr} {s t : State} (h : exec c s = .next t) :
    execAll (c :: cs) s = execAll cs t := by rw [execAll, h]

theorem wordsOf_ne_nil (pad : Byte) {l : List Byte} (h : l ≠ []) : ∃ w ws, wordsOf pad l = w :: ws := by
  match l, h with
  | [_], _ => exact ⟨_, _, rfl⟩
  | _ :: _ :: _, _ => exact ⟨_, _, rfl⟩

/-- The data words of a list of words. -/
def dataWords (ws : List (Word × Bool)) : List Instr := ws.map fun x => .dataWord x.1 x.2

section Collect

variable {s : State} {st : Store} (released : s.station.mrst = false) (on : s.station.state ≠ .setup)

include released on

theorem assembled_takes (n : Nat) (bytes : List Byte) (taken : Nat) (w : Word) (wend : Bool) :
    exec (.dataWord w wend) (s.assembled st n bytes taken) = .next ((s.assembled st n bytes taken).payloadWord w wend) :=
  exec_dataWord_ready (s := s.assembled st n bytes taken) released
    ((wrdy_iff _).mpr ⟨on, .inl (show AssemblyState.assembling ≠ .idle by nofun)⟩) w wend

/-- The words of the rest of a message, WEND on the last, are written one after another and complete it (R114, R116). -/
theorem collect_words {n : Nat} (pad : Byte) (rest bytes : List Byte) (taken : Nat) (some : rest ≠ [])
    (done : bytes.length = 2 * taken) (whole : bytes.length + rest.length = n) :
    execAll (dataWords (withWend (wordsOf pad rest))) (s.assembled st n bytes taken) =
      .next (s.assembled st n (bytes ++ rest) ((n + 1) / 2)).completeMessage := by
  match rest, some with
  | [a], _ =>
    simp only [List.length_cons, List.length_nil] at whole
    have last : (n + 1) / 2 = taken + 1 := by omega
    have odd : (s.assembled st n bytes taken).submission.bytesOf (BitVec.ofNat 16 (256 * a.toNat + pad.toNat)) = [a] := by
      rw [Submission.bytesOf, if_pos ⟨last.symm, show n % 2 = 1 by omega⟩, hiByte_word]
    refine (execAll_cons (assembled_takes released on n bytes taken _ true)).trans ?_
    rw [payloadWord_last (Nat.le_of_eq last), if_pos rfl, assembled_withWord, odd, last]
    rfl
  | [a, b], _ =>
    simp only [List.length_cons, List.length_nil] at whole
    have last : (n + 1) / 2 = taken + 1 := by omega
    have even : (s.assembled st n bytes taken).submission.bytesOf (BitVec.ofNat 16 (256 * a.toNat + b.toNat)) = [a, b] := by
      rw [Submission.bytesOf, if_neg fun h => absurd h.2 (show ¬ n % 2 = 1 by omega), hiByte_word, loByte_word]
    refine (execAll_cons (assembled_takes released on n bytes taken _ true)).trans ?_
    rw [payloadWord_last (Nat.le_of_eq last), if_pos rfl, assembled_withWord, even, last]
    rfl
  | a :: b :: c :: rest, _ =>
    simp only [List.length_cons] at whole
    have more : taken + 1 < (n + 1) / 2 := by omega
    have two : (s.assembled st n bytes taken).submission.bytesOf (BitVec.ofNat 16 (256 * a.toNat + b.toNat)) = [a, b] := by
      rw [bytesOf_more more, hiByte_word, loByte_word]
    have next : exec (.dataWord (BitVec.ofNat 16 (256 * a.toNat + b.toNat)) false) (s.assembled st n bytes taken) =
        .next (s.assembled st n (bytes ++ [a, b]) (taken + 1)) := by
      rw [assembled_takes released on, payloadWord_more more, if_neg Bool.false_ne_true, assembled_withWord, two]
    have later := collect_words (n := n) pad (c :: rest) (bytes ++ [a, b]) (taken + 1) (by simp) (by simp; omega)
      (by simp; omega)
    obtain ⟨w, ws, words⟩ := wordsOf_ne_nil pad (l := c :: rest) (by simp)
    have split : dataWords (withWend (wordsOf pad (a :: b :: c :: rest))) =
        .dataWord (BitVec.ofNat 16 (256 * a.toNat + b.toNat)) false :: dataWords (withWend (wordsOf pad (c :: rest))) := by
      rw [wordsOf, words]
      rfl
    rw [split, execAll_cons next, later, List.append_assoc]
    rfl
termination_by rest.length

end Collect

theorem completeMessage_stored {s : State} {st : Store} {n taken : Nat} {bytes : List Byte}
    (absent : ∀ x ∈ st.own ++ st.peer, x.key ≠ s.nextKey) : (s.assembled st n bytes taken).completeMessage =
      (s.withStore { st with
        own := st.own ++ [{ key := s.nextKey, payload := bytes, pins := s.completionPins }], reserved := none }).withSubmission
        { s.submission with
          asm := .idle, length := n, expected := (n + 1) / 2, taken := taken
          nextSeq := s.submission.nextSeq + 1
          queue := s.submission.queue ++ [{ seq := s.submission.nextSeq, count := 0, marker := .waiting }] } := by
  have complete : (s.assembled st n bytes taken).store.complete (s.assembled st n bytes taken).nextKey
      (s.assembled st n bytes taken).completionPins = (.stored, { st with
        own := st.own ++ [{ key := s.nextKey, payload := bytes, pins := s.completionPins }], reserved := none }) :=
    complete_of_absent (st := { st with reserved := some bytes }) rfl absent _
  have claim (st' : Store) (peer : st'.peer = st.peer) := applyStore_own (s := s.assembled st n bytes taken) peer
  unfold State.completeMessage
  rw [complete]
  dsimp only
  rw [claim { st with own := st.own ++ [⟨s.nextKey, bytes, s.completionPins⟩], reserved := none } rfl]
  rfl

theorem completeMessage_present {s : State} {st : Store} {n taken : Nat} {bytes : List Byte}
    (present : ∃ x ∈ st.own ++ st.peer, x.key = s.nextKey) : (s.assembled st n bytes taken).completeMessage =
      ((s.withStore { st with reserved := none }).withSubmission
        { s.submission with asm := .idle, length := n, expected := (n + 1) / 2, taken := taken }).raise .submitError := by
  have complete : (s.assembled st n bytes taken).store.complete (s.assembled st n bytes taken).nextKey
      (s.assembled st n bytes taken).completionPins = (.present, { st with reserved := none }) :=
    complete_of_present (st := { st with reserved := some bytes }) rfl present _
  have claim (st' : Store) (peer : st'.peer = st.peer) := applyStore_own (s := s.assembled st n bytes taken) peer
  unfold State.completeMessage
  rw [complete]
  dsimp only
  rw [claim { st with reserved := none } rfl]
  rfl

/-- Settles O26: word 0 reserves a cell, the payload words fill it byte for byte, and the last completes the message. -/
theorem submissionIsStored : Obligations.SubmissionIsStored := by
  intro payload pad s st low high released ready idle none reserve
  have some : payload ≠ [] := by rintro rfl; exact absurd low (by simp)
  have size : (BitVec.ofNat 16 payload.length).toNat = payload.length := by
    rw [BitVec.toNat_ofNat]; omega
  have first : exec (.dataWord (BitVec.ofNat 16 payload.length) false) s = .next (s.assembled st payload.length [] 0) := by
    rw [exec_dataWord_ready released ready, State.takeDataWord, idle]
    dsimp only
    rw [wordZero_starts (by omega) (by omega) reserve, size]
    have cell : { st with reserved := Option.some [] } = st := by
      rw [← (reserve_kept reserve).2.1]
    rw [State.assembled, cell]
  obtain ⟨w, ws, words⟩ := wordsOf_ne_nil pad some
  have split : (withWend (BitVec.ofNat 16 payload.length :: wordsOf pad payload)).map (fun x => Instr.dataWord x.1 x.2) =
      .dataWord (BitVec.ofNat 16 payload.length) false :: dataWords (withWend (wordsOf pad payload)) := by
    rw [words]
    rfl
  have all : execAll ((withWend (BitVec.ofNat 16 payload.length :: wordsOf pad payload)).map fun x => .dataWord x.1 x.2) s =
      .next (s.assembled st payload.length payload ((payload.length + 1) / 2)).completeMessage := by
    rw [split, execAll_cons first, collect_words released (not_setup_of_wrdy ready) pad payload [] 0 some rfl (by simp)]
    rfl
  refine ⟨_, all, ?_⟩
  by_cases present : ∃ x ∈ st.own ++ st.peer, x.key = s.nextKey
  · rw [completeMessage_present present]
    refine ⟨fun absent => ?_, fun _ => ⟨rfl, rfl, rfl, rfl, rfl⟩, rfl, rfl, rfl, rfl, rfl, rfl, rfl, rfl, rfl, rfl, rfl, rfl, rfl⟩
    obtain ⟨x, mem, key⟩ := present
    exact absurd key (absent x mem)
  · have absent : ∀ x ∈ st.own ++ st.peer, x.key ≠ s.nextKey := fun x mem key => present ⟨x, mem, key⟩
    rw [completeMessage_stored absent]
    exact ⟨fun _ => ⟨rfl, rfl, rfl, rfl, rfl⟩, fun there => absurd there present, rfl, rfl, rfl, rfl, rfl, rfl, rfl, rfl, rfl, rfl,
      rfl, rfl, rfl⟩

end Sys2Proof.Machine
end

section
/-! The host's commands at a ready channel: JOIN and RECOVER (O28), LEAVE (O29), the event and counter commands (O31), DISCARD_HEAD (O32). -/

open Sys2Proof

namespace Sys2Proof.Machine

set_option Elab.async false

/-! ### A command at a ready channel -/

theorem execute_control (s : State) (c : Command) (args : List Word) : (s.execute c args).after.control = s.control :=
  execute_only s c args .control (by cases c <;> decide)

/-- A command written to a ready channel is answered with its status and data, behind its effect (R176, R178). -/
theorem issue_answered {s : State} (ready : HostReady s) {c : Command} {args : List Word} (count : args.length = c.argCount)
    {r : Reply} (effect : s.execute c args = r) (short : r.data.length < 256) :
    s.issue c args = r.after.answered r.status r.data := by
  rw [issue_of_ready ready count, run_of_ready ready, effect]
  refine respond_eq_answered ?_ _ short
  rw [← effect, execute_control, ready.idle]

theorem issue_refused {s : State} (ready : HostReady s) {c : Command} {args : List Word} (count : args.length = c.argCount)
    {st : Status} (effect : s.execute c args = s.refuse st) : s.issue c args = s.answered st [] :=
  issue_answered ready count effect (by decide : ([] : List Word).length < 256)

theorem issue_done {s t : State} (ready : HostReady s) {c : Command} {args : List Word} (count : args.length = c.argCount)
    (effect : s.execute c args = t.done) : s.issue c args = t.answered .done [] :=
  issue_answered ready count effect (by decide : ([] : List Word).length < 256)

/-! ### JOIN and RECOVER -/

theorem execute_join {s : State} (off : s.station.state = .setup ∨ s.station.state = .ready) (args : List Word) :
    s.execute .join args = s.acceptJoin.done := if_pos off

theorem execute_recover {s : State} (muted : s.station.state = .muted) (args : List Word) :
    s.execute .recover args = s.acceptRecover.done := if_pos muted

theorem acceptJoin_of_ready {s : State} (ready : s.station.state = .ready) : s.acceptJoin =
    (((s.withStation { s.station with state := .listening, listenTimer := some s.setup.listenPeriod }).withTrunk
      { s.trunk with rx := RxPath.at (if s.trunk.burst then .skip else .waiting) }).withContexts s.acceptJoin.contexts) := by
  unfold State.acceptJoin
  dsimp only
  rw [if_neg (by rw [ready]; nofun)]
  rfl

/-- Settles O28: both go to LISTENING with the listen timer started, JOIN with the path on besides. -/
theorem joinAndRecoverListen : Obligations.JoinAndRecoverListen := by
  intro s ready
  refine ⟨fun inside => ?_, fun off => ?_, fun notSetup notReady => ?_, fun muted => ?_, fun notMuted => ?_⟩
  · refine congrArg Host.Outcome.next ((issue_done ready rfl (execute_join (.inl inside) [])).trans ?_)
    rw [State.acceptJoin, if_pos inside]
    rfl
  · refine ⟨s.acceptJoin, congrArg Host.Outcome.next (issue_done ready rfl (execute_join (.inr off) [])),
      acceptJoin_of_ready off, fun o => ?_⟩
    rw [acceptJoin_ctx, if_neg (by rw [off]; nofun)]
    rfl
  · exact congrArg Host.Outcome.next (issue_refused ready rfl (if_neg (by simp [notSetup, notReady])))
  · exact congrArg Host.Outcome.next (issue_done ready rfl (execute_recover muted []))
  · exact congrArg Host.Outcome.next (issue_refused ready rfl (if_neg notMuted))

/-! ### What leaving ACTIVE leaves -/

/-- The trackers after a claim: as they were, or under one of the two reports (R20). -/
theorem applyStore_tracker (s : State) (st : Store) (i : Fin 8) : (s.applyStore st).tracker i = s.tracker i ∨
    (s.applyStore st).tracker i = (s.tracker i).afterExhausted ∨
    (s.applyStore st).tracker i = (s.tracker i).afterClaimable (s.requestDelay (s.tracker i).origin) := by
  obtain ⟨still, exhausts, resumes⟩ := applyStore_cases s st
  by_cases before : s.peerClaimable = 0 <;> by_cases now : (s.withStore st).peerClaimable = 0
  · rw [still (iff_of_true before now)]; exact .inl rfl
  · rw [resumes before now]; exact .inr (.inr (claimableReport_resumes (s.withStore st) i))
  · rw [exhausts before now]; exact .inr (.inl ((exhaustedReport_parks (s.withStore st)).1 i))
  · rw [still (iff_of_false before now)]; exact .inl rfl

theorem afterExhausted_serves (tr : Tracker) :
    tr.afterExhausted.origin = tr.origin ∧ (tr.afterExhausted.state = .free ↔ tr.state = .free) := by
  unfold Tracker.afterExhausted
  split
  · rename_i serves
    refine ⟨rfl, iff_of_false nofun ?_⟩
    rcases serves with h | h <;> rw [h] <;> nofun
  · exact ⟨rfl, Iff.rfl⟩

theorem afterClaimable_serves (delay : Nat) (tr : Tracker) :
    (tr.afterClaimable delay).origin = tr.origin ∧ ((tr.afterClaimable delay).state = .free ↔ tr.state = .free) := by
  unfold Tracker.afterClaimable
  split
  · rename_i parked
    exact ⟨rfl, iff_of_false nofun (by rw [parked]; nofun)⟩
  · exact ⟨rfl, Iff.rfl⟩

/-- Every tracker serves the origin it served, or none. -/
def SameService (s t : State) : Prop := ∀ i : Fin 8,
  (t.tracker i).origin = (s.tracker i).origin ∧ ((t.tracker i).state = .free ↔ (s.tracker i).state = .free)

theorem SameService.refl (s : State) : SameService s s := fun _ => ⟨rfl, Iff.rfl⟩

theorem SameService.trans {s t u : State} (h : SameService s t) (k : SameService t u) : SameService s u := fun i =>
  ⟨(k i).1.trans (h i).1, (k i).2.trans (h i).2⟩

theorem SameService.of_pool {s t : State} (h : t.pool = s.pool) : SameService s t := fun i => by
  rw [State.tracker_congr (congrArg _ h)]; exact ⟨rfl, Iff.rfl⟩

theorem applyStore_service (s : State) (st : Store) : SameService s (s.applyStore st) := fun i => by
  rcases applyStore_tracker s st i with h | h | h <;> rw [h]
  · exact ⟨rfl, Iff.rfl⟩
  · exact afterExhausted_serves _
  · exact afterClaimable_serves _ _

theorem dropDuty_service (s : State) (d : Fin 16) : SameService s (s.dropDuty d) := by
  unfold State.dropDuty
  split
  · exact .refl s
  · exact SameService.trans (.of_pool (emptyDuty_only s d .pool (by decide))) (applyStore_service _ _)

theorem dropDuties_service (s : State) : SameService s s.dropDuties := by
  have fold (l : List (Fin 16)) (s : State) : SameService s (l.foldl State.dropDuty s) := by
    induction l generalizing s with
    | nil => exact .refl s
    | cons d l ih => exact (dropDuty_service s d).trans (ih _)
  exact fold _ s

/-- An entry without TX. -/
def Entry.untx (e : Entry) : Entry := { e with pins := { e.pins with tx := false } }

theorem find_clearTx (st : Store) (k k' : Key) :
    (st.clearTx k).2.find k' = if k' = k then (st.find k').map Entry.untx else st.find k' :=
  Store.find_clearPin st k _ _ (fun p untx => by cases p; cases untx; rfl) k'

/-- Some duty of `l` holds key `k`. -/
def State.holdsDuty (s : State) (l : List (Fin 16)) (k : Key) : Prop := ∃ d ∈ l, (s.duty d).map (fun x => x.key) = some k

theorem dropDuty_find (s : State) (d : Fin 16) (k : Key) :
    (s.holdsDuty [d] k → (s.dropDuty d).store.find k = (s.store.find k).map Entry.untx) ∧
      (¬ s.holdsDuty [d] k → (s.dropDuty d).store.find k = s.store.find k) := by
  have alone : s.holdsDuty [d] k ↔ (s.duty d).map (fun x => x.key) = some k := by simp [State.holdsDuty]
  unfold State.dropDuty
  split
  · rename_i free
    rw [alone, free]
    exact ⟨nofun, fun _ => rfl⟩
  · rename_i x there
    have store : (s.releaseDuty d x.key).store = (s.store.clearTx x.key).2 := by
      rw [State.releaseDuty, State.clearTx, applyStore_store, emptyDuty_only s d .store (by decide)]
    rw [alone, there, store, find_clearTx]
    refine ⟨fun same => if_pos ?_, fun other => if_neg fun same => other ?_⟩
    · exact (Option.some.inj same).symm
    · rw [same]; rfl

theorem untx_twice (o : Option Entry) : (o.map Entry.untx).map Entry.untx = o.map Entry.untx := by cases o <;> rfl

/-- Duties dropped one after another take TX from the keys they held (R89). -/
theorem dropAll_find (l : List (Fin 16)) (s : State) (k : Key) :
    (s.holdsDuty l k → (l.foldl State.dropDuty s).store.find k = (s.store.find k).map Entry.untx) ∧
      (¬ s.holdsDuty l k → (l.foldl State.dropDuty s).store.find k = s.store.find k) := by
  induction l generalizing s with
  | nil => exact ⟨fun ⟨d, mem, _⟩ => absurd mem (List.not_mem_nil), fun _ => rfl⟩
  | cons d l ih =>
    obtain ⟨drops, stands⟩ := ih (s.dropDuty d)
    obtain ⟨drop, stand⟩ := dropDuty_find s d k
    have rest : (s.dropDuty d).holdsDuty l k → s.holdsDuty l k := fun ⟨e, mem, key⟩ => ⟨e, mem, by
      rw [dropDuty_duty] at key
      split at key
      · cases key
      · exact key⟩
    have either : s.holdsDuty (d :: l) k ↔ s.holdsDuty [d] k ∨ (s.dropDuty d).holdsDuty l k := by
      refine ⟨fun ⟨e, mem, key⟩ => ?_, fun h => ?_⟩
      · by_cases eq : e = d
        · exact .inl ⟨e, by simp [eq], key⟩
        · refine .inr ⟨e, (List.mem_cons.mp mem).resolve_left eq, ?_⟩
          rw [dropDuty_duty, if_neg eq]
          exact key
      · rcases h with ⟨e, mem, key⟩ | h
        · exact ⟨e, by rw [List.mem_singleton.mp mem]; simp, key⟩
        · obtain ⟨e, mem, key⟩ := rest h
          exact ⟨e, .tail _ mem, key⟩
    rw [List.foldl_cons, either]
    by_cases here : s.holdsDuty [d] k <;> by_cases later : (s.dropDuty d).holdsDuty l k
    · exact ⟨fun _ => by rw [drops later, drop here, untx_twice], fun no => absurd (.inl here) no⟩
    · exact ⟨fun _ => by rw [stands later, drop here], fun no => absurd (.inl here) no⟩
    · exact ⟨fun _ => by rw [drops later, stand here], fun no => absurd (.inr later) no⟩
    · exact ⟨fun h => absurd h (not_or.mpr ⟨here, later⟩), fun _ => by rw [stands later, stand here]⟩

theorem leaveActive_eq (x : Scheduler) : x.leaveActive =
    if x.state = .holdoff then
      { x with
        state := .idle, commitment := none, holdoff := none, beaconTimer := none, beaconDuty := false, beaconCount := 0 }
    else { x with beaconTimer := none, beaconDuty := false, beaconCount := 0 } := by
  unfold Scheduler.leaveActive
  dsimp only

/-- After ACTIVE is left each entry a duty held has lost that duty's TX pin (R89). -/
theorem quitActive_find (s : State) (k : Key) : s.quitActive.store.find k = (s.store.find k).map fun e =>
    if ∃ d : Fin 16, (s.duty d).map (fun x => x.key) = some k then { e with pins := { e.pins with tx := false } } else e := by
  have store : s.quitActive.store = (s.withSched s.sched.leaveActive).dropDuties.store :=
    freeAllTrackers_only _ .store (by decide)
  obtain ⟨drops, stands⟩ := dropAll_find allDuties (s.withSched s.sched.leaveActive) k
  have all : (s.withSched s.sched.leaveActive).holdsDuty allDuties k ↔
      ∃ d : Fin 16, (s.duty d).map (fun x => x.key) = some k :=
    ⟨fun ⟨d, _, key⟩ => ⟨d, key⟩, fun ⟨d, key⟩ => ⟨d, List.mem_finRange d, key⟩⟩
  rw [store, State.dropDuties]
  rw [all] at drops stands
  by_cases held : ∃ d : Fin 16, (s.duty d).map (fun x => x.key) = some k
  · rw [drops held]
    simp only [if_pos held]
    rfl
  · rw [stands held]
    simp only [if_neg held]
    simp

theorem freed_fields {x : Tracker} (serving : x.state ≠ .free) :
    x.freed.timer = .stopped ∧ x.freed.marker = .none ∧ x.freed.lastOrigin = x.origin := by
  rw [Tracker.freed, if_neg serving]
  exact ⟨rfl, rfl, rfl⟩

/-- The trackers after ACTIVE is left (R71). -/
theorem quitActive_tracker {s : State} (inactive : s.isActive = false) (i : Fin 8) :
    s.quitActive.tracker i = ((s.withSched s.sched.leaveActive).dropDuties.tracker i).freed := by
  have still : (s.withSched s.sched.leaveActive).dropDuties.isActive = false := by
    rw [State.isActive, dropDuties_only _ .station (by decide)]; exact inactive
  rw [State.quitActive, freeAllTrackers_tracker still]

theorem quitActive_freed {s : State} (inactive : s.isActive = false) (i : Fin 8) (serving : (s.tracker i).state ≠ .free) :
    (s.quitActive.tracker i).timer = .stopped ∧ (s.quitActive.tracker i).marker = .none ∧
      (s.quitActive.tracker i).lastOrigin = (s.tracker i).origin := by
  have service := dropDuties_service (s.withSched s.sched.leaveActive) i
  have same : (s.withSched s.sched.leaveActive).tracker i = s.tracker i := rfl
  rw [quitActive_tracker inactive]
  rw [same] at service
  generalize (s.withSched s.sched.leaveActive).dropDuties.tracker i = x at *
  rw [← service.1]
  exact freed_fields fun free => serving (service.2.mp free)

/-- What the pools and the Scheduler are left as when ACTIVE has been left (R71, R89, R142). -/
theorem quitActive_quits {s : State} (inactive : s.isActive = false) : QuitActive s s.quitActive :=
  have only := quitActive_only s
  have pins := (Claims.quitActive s).pinsOnly
  { trackers := fun i => by rw [quitActive_tracker inactive]; exact Tracker.freed_state _
    freed := quitActive_freed inactive
    duties := quitActive_duty s
    own := pins.own
    peer := pins.peer
    reserved := pins.reserved
    pins := quitActive_find s
    sched := (quitActive_sched s).trans (leaveActive_eq s.sched)
    queue := only .submission (by decide)
    delivery := only .delivery (by decide)
    counters := only .counters (by decide) }

/-- The pools and the Scheduler of `u` are those of `s`. -/
theorem QuitActive.of_only {s u t : State} {bs : List Block} (h : QuitActive u t) (only : Only bs s u)
    (sub : ∀ b ∈ bs, b ∉ [Block.store, .pool, .duties, .sched, .submission, .delivery, .counters] := by decide) :
    QuitActive s t := by
  have same (b : Block) (hb : b ∈ [Block.store, .pool, .duties, .sched, .submission, .delivery, .counters]) : b.same s u :=
    only b fun h => sub b h hb
  have tracker (i : Fin 8) : u.tracker i = s.tracker i := State.tracker_congr (congrArg _ (same .pool (by decide))) i
  have duty (d : Fin 16) : u.duty d = s.duty d := State.duty_congr (congrArg _ (same .duties (by decide))) d
  have store : u.store = s.store := same .store (by decide)
  have sched : u.sched = s.sched := same .sched (by decide)
  refine ⟨h.trackers, fun i serving => ?_, h.duties, store ▸ h.own, store ▸ h.peer, store ▸ h.reserved, fun k => ?_,
    sched ▸ h.sched, h.queue.trans (same .submission (by decide)), h.delivery.trans (same .delivery (by decide)),
    h.counters.trans (same .counters (by decide))⟩
  · rw [← tracker] at serving ⊢
    exact h.freed i serving
  · rw [h.pins, store]
    simp only [duty]

/-! ### LEAVE -/

theorem inFlight_iff (s : State) : s.inFlight = true ↔ s.sched.state = .sending ∨ s.sched.state = .jamming := by
  simp [State.inFlight]

theorem acceptLeave_quits (s : State) : QuitActive s s.acceptLeave := by
  unfold State.acceptLeave
  split
  · exact (quitActive_quits (isActive_of_ne (show StationState.leaving ≠ .active by nofun))).of_only (withStation_only s _)
  · exact (quitActive_quits (isActive_of_ne (by rw [enterReady_state]; nofun))).of_only (enterReady_only s)

theorem enterReady_ctx (s : State) (o : Station) : s.enterReady.ctx o = { s.ctx o with silenceTimer := none } := by
  simp [State.enterReady, State.stopSilenceTimers, State.ctx, State.withContexts, State.withTrunk, State.withStation]

theorem acceptLeave_ctx (s : State) (o : Station) : ∃ held, s.acceptLeave.ctx o =
    { s.ctx o with trackerHeld := held, silenceTimer := if s.inFlight then (s.ctx o).silenceTimer else none } := by
  unfold State.acceptLeave
  split
  · exact ⟨_, quitActive_heldOnly _ o⟩
  · refine ⟨(s.enterReady.quitActive.ctx o).trackerHeld, ?_⟩
    rw [quitActive_heldOnly s.enterReady o, enterReady_ctx]

/-- Settles O29: LEAVE leaves ACTIVE with its pools, and the station too unless a frame or jam is in flight. -/
theorem leaveLeaves : Obligations.LeaveLeaves := by
  intro s ready
  refine ⟨fun on => ?_, fun off => ?_⟩
  · have only := acceptLeave_only s
    obtain ⟨-, -, station, trunk⟩ := acceptLeave_station s
    simp only [inFlight_iff] at station trunk
    refine ⟨s.acceptLeave, ?_, acceptLeave_quits s, station, trunk, fun o => ?_, only .events (by decide), only .out (by decide),
      only .pending (by decide)⟩
    · exact congrArg Host.Outcome.next (issue_done ready (c := .leave) (args := []) rfl
        (show s.execute .leave [] = s.acceptLeave.done from if_pos on))
    · obtain ⟨held, ctx⟩ := acceptLeave_ctx s o
      simp only [inFlight_iff] at ctx
      rw [ctx]
      exact ⟨rfl, rfl, rfl, rfl, rfl, rfl⟩
  · refine congrArg Host.Outcome.next (issue_refused ready (c := .leave) (args := []) rfl (if_neg ?_))
    rcases off with h | h | h <;> rw [h] <;> simp

/-! ### Events and counters -/

/-- A word of bits is not 0 when one of its bits is set. -/
theorem ne_zero_iff_bit {n : Nat} (x : BitVec n) : (x != 0) = true ↔ ∃ i, i < n ∧ x.getLsbD i = true := by
  rw [bne_iff_ne, ne_eq, ← not_iff_not, not_not]
  constructor
  · rintro rfl ⟨i, -, bit⟩
    simp at bit
  · intro none
    refine BitVec.eq_of_getLsbD_eq fun i lt => ?_
    have : x.getLsbD i ≠ true := fun bit => none ⟨i, lt, bit⟩
    simpa using this

/-- Settles O31: the alert lines bit by bit, and the four commands on flags, mask, priority and counters. -/
theorem eventAndCounterCommands : Obligations.EventAndCounterCommands := by
  refine ⟨fun s => ⟨?_, ?_⟩, fun mask s ready => ⟨?_, ⟨s.events.flags &&& ~~~(mask.setWidth 11), ?_, fun i lt => ?_⟩,
    ⟨mask.setWidth 11, ?_, fun i lt => ?_⟩, ⟨mask.setWidth 11, ?_, fun i lt => ?_⟩⟩⟩
  · rw [State.alertHi, ne_zero_iff_bit]
    refine exists_congr fun i => and_congr_right fun lt => ?_
    simp [lt, and_assoc]
  · rw [State.alertLo, ne_zero_iff_bit]
    refine exists_congr fun i => and_congr_right fun lt => ?_
    simp [lt, and_assoc]
  · exact congrArg Host.Outcome.next (issue_done ready (c := .clearCounters) (args := []) rfl rfl)
  · exact congrArg Host.Outcome.next (issue_done ready (c := .ackEvents) (args := [mask]) rfl rfl)
  · simp [lt]
  · exact congrArg Host.Outcome.next (issue_done ready (c := .setEventMask) (args := [mask]) rfl rfl)
  · simp [lt]
  · exact congrArg Host.Outcome.next (issue_done ready (c := .setEventPriority) (args := [mask]) rfl rfl)
  · simp [lt]

/-! ### DISCARD_HEAD -/

theorem dqAe_iff (s : State) : s.dqAe = true ↔ s.delivery.queue.length ≤ s.setup.dqAeLevel := decide_eq_true_iff

theorem dqAf_iff (s : State) : s.dqAf = true ↔ 128 - s.setup.dqAfOffset ≤ s.delivery.queue.length := decide_eq_true_iff

theorem rval_iff (s : State) : s.rval = true ↔ s.delivery.queue ≠ [] := by
  rw [← not_iff_not, Bool.not_eq_true, rval_eq_false_iff, not_not]

/-- The first word of a record: its kind and its origin (R187). -/
theorem kindWord_eq (kind : Nat) (small : kind < 256) (o : Station) : kindWord kind o = BitVec.ofNat 16 (256 * kind + o.toNat) := by
  have := o.isLt
  simp only [kindWord, packWord, bitField, List.sum_cons, List.sum_nil]
  congr 1
  omega

theorem exec_discardHead {s : State} (ready : HostReady s) {r : Record} {rest : List Record} (head : s.delivery.queue = r :: rest) :
    exec .discardHead s = .next (s.dropHead.answered .done [r.firstWord]) := by
  refine congrArg Host.Outcome.next (issue_answered ready (c := .discardHead) (args := []) rfl
    (r := { status := .done, data := [r.firstWord], after := s.dropHead }) ?_ (by simp))
  simp only [State.execute, State.discard, head]

/-- Settles O32: the lines by the queue's length, and the head record that leaves. -/
theorem discardHeadRemovesHead : Obligations.DiscardHeadRemovesHead := by
  refine ⟨fun s => ⟨rval_iff s, dqAe_iff s, dqAf_iff s⟩, fun s ready => ⟨fun empty => ?_, fun k rest head => ?_,
    fun o e first count rest head => ?_, fun o old new count rest head => ?_⟩⟩
  · refine congrArg Host.Outcome.next (issue_refused ready (c := .discardHead) (args := []) rfl ?_)
    simp only [State.execute, State.discard, empty]
  · rw [exec_discardHead ready head, Record.firstWord, kindWord_eq 1 (by decide)]
    simp only [State.dropHead, head]
  · rw [exec_discardHead ready head, Record.firstWord, kindWord_eq 2 (by decide)]
    simp only [State.dropHead, head]
  · rw [exec_discardHead ready head, Record.firstWord, kindWord_eq 3 (by decide)]
    simp only [State.dropHead, head]

end Sys2Proof.Machine
end

section
/-! The parser (O33), the response channel (O35) and the commands that read (O30). -/

open Sys2Proof

namespace Sys2Proof.Machine

set_option Elab.async false

/-! ### The parser, state by state -/

theorem controlWord_idle {s : State} (released : s.station.mrst = false) (idle : s.control.parser = .idle) (w : Word) (wend : Bool) :
    s.controlWord w wend = s.commandWord0 w wend := by simp [State.controlWord, released, idle]

theorem controlWord_rejecting {s : State} (released : s.station.mrst = false) (p : s.control.parser = .rejecting) (w : Word)
    (wend : Bool) : s.controlWord w wend = s.malformed wend := by simp [State.controlWord, released, p]

theorem controlWord_ignoring {s : State} (released : s.station.mrst = false) (p : s.control.parser = .ignoring) (w : Word)
    (wend : Bool) : s.controlWord w wend = if wend then s.setParser .idle else s := by simp [State.controlWord, released, p]

theorem malformed_end (s : State) : s.malformed true = s.answered .malformed [] :=
  respond_eq_answered (s := s.setParser .idle) rfl .malformed (by decide : ([] : List Word).length < 256)

theorem malformed_more (s : State) : s.malformed false = s.setParser .rejecting := rfl

theorem setParser_same {s : State} {p : Parser} (h : s.control.parser = p) : s.setParser p = s := by
  simp [State.setParser, State.withControl, ← h]

/-- Word 0 while a response is unread (R177). -/
theorem commandWord0_unread {s : State} (unread : s.control.response ≠ []) (w : Word) (wend : Bool) : s.commandWord0 w wend =
    if wend then s.raise .portMisuse else (s.raise .portMisuse).setParser .ignoring := if_pos unread

theorem commandWord0_unknown {s : State} (read : s.control.response = []) {w : Word} (unknown : commandOf w = none) (wend : Bool) :
    s.commandWord0 w wend = s.malformed wend := by
  rw [State.commandWord0, if_neg (not_not.mpr read), unknown]

/-- Word 0 whose WEND does not fit the command's argument count (R175). -/
theorem commandWord0_misfit {s : State} (read : s.control.response = []) {c : Command} {wend : Bool}
    (misfit : wend = true ↔ c.argCount ≠ 0) : s.commandWord0 c.word0 wend = s.malformed wend := by
  rw [State.commandWord0, if_neg (not_not.mpr read), commandOf_word0]
  dsimp only
  by_cases bare : c.argCount = 0
  · have more : wend = false := by simpa [bare] using misfit
    rw [if_pos bare, more, if_neg Bool.false_ne_true]
  · rw [if_neg bare, misfit.mpr bare, if_pos rfl]

/-- The first words of the thirteen commands (R188). -/
theorem commandOf_eq_none {w : Word} (unknown : w ∉ [0x0102#16, 0x0200#16, 0x0300#16, 0x0400#16, 0x1000#16, 0x1101#16, 0x1200#16,
    0x1300#16, 0x1400#16, 0x1501#16, 0x1601#16, 0x1701#16, 0x2000#16]) : commandOf w = none := by
  rw [commandOf, List.find?_eq_none]
  have words : allCommands.map Command.word0 = [0x0102#16, 0x0200#16, 0x0300#16, 0x0400#16, 0x1000#16, 0x1101#16, 0x1200#16,
    0x1300#16, 0x1400#16, 0x1501#16, 0x1601#16, 0x1701#16, 0x2000#16] := by decide
  intro c mem same
  refine unknown ?_
  rw [← words, ← beq_iff_eq.mp same]
  exact List.mem_map_of_mem mem

theorem argumentWord_early {s : State} {c : Command} {args : List Word} (early : args.length + 1 < c.argCount) (w : Word)
    (wend : Bool) : s.argumentWord c args w wend =
      if wend then s.malformed wend else s.setParser (.collecting c (args ++ [w])) := if_pos early

theorem argumentWord_last {s : State} {c : Command} {args : List Word} (last : ¬ args.length + 1 < c.argCount) (w : Word)
    (wend : Bool) : s.argumentWord c args w wend = if wend then s.run c (args ++ [w]) else s.malformed wend := if_neg last

/-- Word 0 with WEND of a command without arguments is the command's own row (R174). -/
theorem exec_controlWord_bare {s : State} (ready : HostReady s) {c : Command} (bare : c.argCount = 0) :
    exec (.controlWord c.word0 true) s = .next (s.issue c []) := by
  refine congrArg Host.Outcome.next ?_
  rw [controlWord_idle ready.released ready.idle, commandWord0_word0_end ready.read bare,
    issue_of_ready ready (args := []) bare.symm]

/-- Word 0 of a command with arguments makes the parser collect them (R174). -/
theorem exec_controlWord_collects {s : State} (ready : HostReady s) {c : Command} (more : c.argCount ≠ 0) :
    exec (.controlWord c.word0 false) s = .next (s.setParser (.collecting c [])) := by
  refine congrArg Host.Outcome.next ?_
  rw [controlWord_idle ready.released ready.idle, commandWord0_word0_more ready.read more]

/-- The last argument with WEND runs the command as its own row does (R174). -/
theorem exec_controlWord_last {s u : State} (ready : HostReady s) {c : Command} {taken : List Word} {w : Word}
    (busy : u = s.setParser (.collecting c taken)) (count : taken.length + 1 = c.argCount) :
    exec (.controlWord w true) u = .next (s.issue c (taken ++ [w])) := by
  refine congrArg Host.Outcome.next ?_
  subst busy
  rw [controlWord_of_collecting (s := s.setParser (.collecting c taken)) ready.released rfl, argumentWord_last (by omega), if_pos rfl,
    run_setParser, issue_of_ready ready (by simpa using count)]

/-- A command with one argument, word by word (R174). -/
theorem execAll_one_argument {s : State} (ready : HostReady s) {c : Command} (one : c.argCount = 1) (w : Word) :
    execAll [.controlWord c.word0 false, .controlWord w true] s = .next (s.issue c [w]) := by
  rw [execAll_cons (exec_controlWord_collects ready (by omega)),
    execAll_cons (exec_controlWord_last ready (taken := []) rfl (by rw [one]; rfl))]
  rfl

/-- SET, word by word (R174). -/
theorem execAll_set {s : State} (ready : HostReady s) (v w : Word) :
    execAll [.controlWord (Command.word0 .set) false, .controlWord v false, .controlWord w true] s = .next (s.issue .set [v, w]) := by
  have second : exec (.controlWord v false) (s.setParser (.collecting .set [])) = .next (s.setParser (.collecting .set [v])) := by
    refine congrArg Host.Outcome.next ?_
    rw [controlWord_of_collecting (s := s.setParser (.collecting .set [])) ready.released rfl, argumentWord_early (by decide),
      if_neg Bool.false_ne_true]
    rfl
  rw [execAll_cons (exec_controlWord_collects ready (by decide)), execAll_cons second,
    execAll_cons (exec_controlWord_last ready (taken := [v]) rfl rfl)]
  rfl

/-- Settles O33: the word is taken by the parser's state, and the completing word runs the command of its own row. -/
theorem controlWordParser : Obligations.ControlWordParser := by
  intro w s released
  have next {u : State} {w : Word} {wend : Bool} (h : s.controlWord w wend = u) : exec (.controlWord w wend) s = .next u :=
    congrArg Host.Outcome.next h
  refine ⟨fun idle unread => ⟨next ?_, next ?_⟩, fun ready unknown => ⟨next ?_, next ?_⟩, fun ready c known => ?_,
    fun ready known => ?_, fun busy => ⟨next ?_, next ?_⟩, fun busy => next ?_, fun rejecting => ⟨next ?_, next ?_⟩,
    fun ignoring => ⟨next ?_, next ?_⟩, fun ready => ?_, fun ready v => ?_⟩
  · rw [controlWord_idle released idle, commandWord0_unread unread, if_pos rfl]
  · rw [controlWord_idle released idle, commandWord0_unread unread]
    rfl
  · rw [controlWord_idle released ready.idle, commandWord0_unknown ready.read (commandOf_eq_none unknown), malformed_end]
  · rw [controlWord_idle released ready.idle, commandWord0_unknown ready.read (commandOf_eq_none unknown)]
    rfl
  · have this : w = c.word0 ∧ c.argCount ≠ 0 := by
      simp only [List.mem_cons, List.not_mem_nil, or_false, Prod.mk.injEq] at known
      rcases known with ⟨rfl, rfl⟩ | ⟨rfl, rfl⟩ | ⟨rfl, rfl⟩ | ⟨rfl, rfl⟩ | ⟨rfl, rfl⟩ <;> decide
    obtain ⟨rfl, more⟩ := this
    refine ⟨next ?_, exec_controlWord_collects ready more⟩
    rw [controlWord_idle released ready.idle, commandWord0_misfit ready.read (by simp [more]), malformed_end]
  · have this : ∃ c : Command, w = c.word0 ∧ c.argCount = 0 := by
      simp only [List.mem_cons, List.not_mem_nil, or_false] at known
      rcases known with rfl | rfl | rfl | rfl | rfl | rfl | rfl | rfl
      · exact ⟨.join, by decide⟩
      · exact ⟨.leave, by decide⟩
      · exact ⟨.recover, by decide⟩
      · exact ⟨.status, by decide⟩
      · exact ⟨.readCounters, by decide⟩
      · exact ⟨.clearCounters, by decide⟩
      · exact ⟨.readEvents, by decide⟩
      · exact ⟨.discardHead, by decide⟩
    obtain ⟨c, rfl, bare⟩ := this
    refine next ?_
    rw [controlWord_idle released ready.idle, commandWord0_misfit ready.read (by simp [bare])]
    rfl
  · rw [controlWord_of_collecting released busy, argumentWord_early (by decide), if_pos rfl, malformed_end]
  · rw [controlWord_of_collecting released busy, argumentWord_early (by decide)]
    rfl
  · have last : ∃ c taken, s.control.parser = .collecting c taken ∧ ¬ taken.length + 1 < c.argCount := by
      rcases busy with ⟨first, busy⟩ | ⟨c, mem, busy⟩
      · exact ⟨.set, [first], busy, by simp [Command.argCount]⟩
      · refine ⟨c, [], busy, ?_⟩
        simp only [List.mem_cons, List.not_mem_nil, or_false] at mem
        rcases mem with rfl | rfl | rfl | rfl <;> decide
    obtain ⟨c, taken, busy, last⟩ := last
    rw [controlWord_of_collecting released busy, argumentWord_last last]
    rfl
  · rw [controlWord_rejecting released rejecting, malformed_end]
  · rw [controlWord_rejecting released rejecting, malformed_more, setParser_same rejecting]
  · rw [controlWord_ignoring released ignoring]
    rfl
  · rw [controlWord_ignoring released ignoring]
    rfl
  · exact ⟨exec_controlWord_bare ready (c := .join) rfl, exec_controlWord_bare ready (c := .leave) rfl,
      exec_controlWord_bare ready (c := .recover) rfl, exec_controlWord_bare ready (c := .status) rfl,
      exec_controlWord_bare ready (c := .readCounters) rfl, exec_controlWord_bare ready (c := .clearCounters) rfl,
      exec_controlWord_bare ready (c := .readEvents) rfl, exec_controlWord_bare ready (c := .discardHead) rfl⟩
  · exact ⟨execAll_set ready v w, execAll_one_argument ready (c := .readContext) rfl w,
      execAll_one_argument ready (c := .ackEvents) rfl w, execAll_one_argument ready (c := .setEventMask) rfl w,
      execAll_one_argument ready (c := .setEventPriority) rfl w⟩

/-! ### The response channel -/

/-- The words of a command that is being ignored are dropped, and the last makes the parser IDLE (R177). -/
theorem ignored_words {s : State} (released : s.station.mrst = false) (ignoring : s.control.parser = .ignoring) {ws : List Word}
    (some : ws ≠ []) : (withWend ws).foldl (fun s x => s.controlWord x.1 x.2) s = s.setParser .idle := by
  induction ws with
  | nil => exact absurd rfl some
  | cons w ws ih =>
    cases ws with
    | nil => simp [withWend, controlWord_ignoring released ignoring]
    | cons v ws =>
      have rest := ih (by simp)
      simpa [withWend, controlWord_ignoring released ignoring] using rest

/-- While a response is unread a command is ignored (R177). -/
theorem issue_unread {s : State} (released : s.station.mrst = false) (idle : s.control.parser = .idle)
    (unread : s.control.response ≠ []) (c : Command) (args : List Word) : s.issue c args = s.raise .portMisuse := by
  have all_left : s.wordsLeft c args = c.word0 :: args := by simp [State.wordsLeft, idle]
  rw [State.issue, all_left]
  cases args with
  | nil => simp [withWend, controlWord_idle released idle, commandWord0_unread unread]
  | cons w args =>
    have rest := ignored_words (s := (s.raise .portMisuse).setParser .ignoring) released rfl (ws := w :: args) (by simp)
    have same : ((s.raise .portMisuse).setParser .ignoring).setParser .idle = s.raise .portMisuse :=
      setParser_same (s := s.raise .portMisuse) idle
    simp only [withWend, List.foldl_cons, controlWord_idle released idle, commandWord0_unread unread, if_neg Bool.false_ne_true]
    rw [rest, same]

theorem exec_responseTake {s : State} (released : s.station.mrst = false) : exec .responseTake s = .next s.takeResponse := by
  change execResponseTake s = _
  rw [execResponseTake, released]
  rfl

theorem takeResponse_unread {s : State} (unread : s.control.response ≠ []) {w : Word}
    (word : s.control.response[s.control.readPos]? = some w) : s.takeResponse =
      (s.withOut { rd := w, rlast := s.control.readPos + 1 == s.control.response.length }).withControl
        (if s.control.readPos + 1 = s.control.response.length then { s.control with response := [], readPos := 0 }
          else { s.control with readPos := s.control.readPos + 1 }) := by
  have inside : s.control.readPos < s.control.response.length := (List.getElem?_eq_some_iff.mp word).1
  unfold State.takeResponse
  split
  · rename_i empty; exact absurd empty unread
  · rename_i v vs response
    rw [response] at inside word
    have this : (v :: vs).getD s.control.readPos 0 = w := by rw [List.getD_eq_getElem?_getD, word]; rfl
    dsimp only
    rw [this, response]
    by_cases last : s.control.readPos + 1 = (v :: vs).length
    · rw [if_pos (Nat.le_of_eq last.symm), if_pos last, beq_iff_eq.mpr last]
      rfl
    · rw [if_neg (by omega), if_neg last, beq_eq_false_iff_ne.mpr last]
      rfl

/-- The takes of a response, from any read position (R176). -/
theorem takes_response (n : Nat) {s : State} (released : s.station.mrst = false) (unread : s.control.response ≠ []) {w : Word}
    (word : s.control.response[s.control.readPos + n]? = some w) : execAll (List.replicate (n + 1) .responseTake) s =
      .next ((s.withOut { rd := w, rlast := s.control.readPos + n + 1 == s.control.response.length }).withControl
        (if s.control.readPos + n + 1 = s.control.response.length then { s.control with response := [], readPos := 0 }
          else { s.control with readPos := s.control.readPos + n + 1 })) := by
  have inside : s.control.readPos + n < s.control.response.length := (List.getElem?_eq_some_iff.mp word).1
  induction n generalizing s with
  | zero =>
    rw [List.replicate_succ, execAll_cons (exec_responseTake released), takeResponse_unread unread word]
    rfl
  | succ n ih =>
    have here : s.control.readPos < s.control.response.length := by omega
    have first : ∃ out, s.takeResponse = (s.withOut out).withControl { s.control with readPos := s.control.readPos + 1 } :=
      ⟨_, (takeResponse_unread unread (List.getElem?_eq_getElem here)).trans (by rw [if_neg (by omega)])⟩
    obtain ⟨out, first⟩ := first
    have shift : s.control.readPos + 1 + n = s.control.readPos + (n + 1) := by omega
    rw [← shift] at word inside ⊢
    rw [List.replicate_succ, execAll_cons (exec_responseTake released), first]
    exact ih (s := (s.withOut out).withControl { s.control with readPos := s.control.readPos + 1 }) released unread word inside

/-- Settles O35: a response is read word by word, and a command written meanwhile is ignored. -/
theorem takesReadResponse : Obligations.TakesReadResponse := by
  intro s released
  refine ⟨fun c host idle unread => ?_, fun empty => ?_, fun unread start n w word => ?_⟩
  · obtain ⟨cmd, args, -, -, run⟩ := exec_host host
    rw [run, issue_unread released idle unread]
  · rw [exec_responseTake released, State.takeResponse, empty]
    rfl
  · have takes := takes_response n released unread (w := w) (by rw [start, Nat.zero_add]; exact word)
    rwa [start, Nat.zero_add] at takes

end Sys2Proof.Machine
end

section
/-! The words that the reading commands answer (O30). -/

open Sys2Proof

namespace Sys2Proof.Machine

set_option Elab.async false

/-- A command that reads answers its words and changes nothing. -/
theorem issue_doneWith {s : State} (ready : HostReady s) {c : Command} {args : List Word} (count : args.length = c.argCount)
    {data : List Word} (effect : s.execute c args = s.doneWith data) (short : data.length < 256) :
    s.issue c args = s.answered .done data := issue_answered ready count effect short

/-! ### Packed words -/

theorem flagBit_eq (b : Bool) : flagBit b = b.toNat := by cases b <;> rfl

/-- A field that is wide enough for its value. -/
theorem bitField_of_lt {width low v : Nat} (h : v < 2 ^ width) : bitField width low v = v * 2 ^ low := by
  rw [bitField, Nat.mod_eq_of_lt h]

theorem bitField_flag (low : Nat) (b : Bool) : bitField 1 low (flagBit b) = b.toNat * 2 ^ low := by
  rw [flagBit_eq, bitField_of_lt (by cases b <;> decide)]

/-! ### The fields of STATUS -/

theorem stationCode_lt (x : StationState) : x.code < 2 ^ 3 := by cases x <;> decide

theorem muteCode_lt (x : Option MuteReason) : muteCode x < 2 ^ 2 := by
  rcases x with _ | x
  · decide
  · cases x <;> decide

theorem schedCode_lt (x : SchedState) : x.code < 2 ^ 2 := by cases x <;> decide

theorem commitmentCode_lt (x : Option Commitment) : commitmentCode x < 2 ^ 3 := by
  rcases x with _ | ⟨duty, count⟩
  · decide
  · cases duty <;> simp only [commitmentCode, DutyRef.frameClass, FrameClass.idx] <;> decide

theorem classCode_lt (f : ClassFlags) : f.code < 2 ^ 4 := by
  have bit (b : Bool) : flagBit b ≤ 1 := by cases b <;> decide
  have := bit f.replay
  have := bit f.gapreq
  have := bit f.data
  have := bit f.beacon
  unfold ClassFlags.code
  omega

/-- The counts of cells fit their fields (R1, R6). -/
theorem cell_counts {s : State} (h : StoreSound s) :
    s.ownFree < 2 ^ 10 ∧ s.ownClaimable < 2 ^ 10 ∧ s.peerFree < 2 ^ 10 ∧ s.peerClaimable < 2 ^ 10 := by
  have share := h.share
  have own := h.ownRoom
  have peer := h.peerRoom
  have ownUnpinned : unpinned s.store.own ≤ s.store.own.length := List.countP_le_length
  have peerUnpinned : unpinned s.store.peer ≤ s.store.peer.length := List.countP_le_length
  simp only [State.ownFree, State.ownClaimable, State.peerFree, State.peerClaimable, Store.ownFree, Store.ownClaimable,
    Store.peerFree, Store.peerClaimable, Config.cells] at *
  omega

theorem dutiesIn_le (s : State) (x : DutyState) : s.dutiesIn x ≤ 16 := List.countP_le_length

theorem length_le_one {α : Type} {l : List α} (nodup : l.Nodup) (same : ∀ a ∈ l, ∀ b ∈ l, a = b) : l.length ≤ 1 := by
  match l, nodup, same with
  | [], _, _ => simp
  | [_], _, _ => simp
  | a :: b :: l, nodup, same => simp [same a (by simp) b (by simp)] at nodup

/-- At most one duty is SENDING, for the transmitter carries one frame (R81). -/
theorem dutiesIn_sending {s : State} (h : WireSound s) : s.dutiesIn .sending ≤ 1 := by
  have committed {d : Fin 16} (sends : (s.duty d).any (fun y => y.state == .sending) = true) :
      s.sched.commitment.map (fun c => c.duty) = some (.replay d) := by
    cases there : s.duty d with
    | none => rw [there] at sends; cases sends
    | some x =>
      rw [there] at sends
      exact (h.replay d x there (by simpa using sends)).2
  have one (d e : Fin 16) (hd : (s.duty d).any (fun y => y.state == .sending) = true)
      (he : (s.duty e).any (fun y => y.state == .sending) = true) : d = e := by
    have same := (committed hd).symm.trans (committed he)
    cases same
    rfl
  rw [State.dutiesIn, List.countP_eq_length_filter]
  exact length_le_one ((List.nodup_finRange 16).filter _) fun d hd e he => one d e (List.mem_filter.mp hd).2 (List.mem_filter.mp he).2

/-- What STATUS packs into its first word (Table 11.6). -/
theorem statusWord0 (s : State) :
    packWord [bitField 3 13 s.station.state.code, bitField 2 11 (muteCode s.station.muteReason),
      bitField 2 9 s.station.rate.toNat, bitField 5 0 s.stn.toNat] =
    BitVec.ofNat 16 (s.station.state.code * 8192 + muteCode s.station.muteReason * 2048 + s.station.rate.toNat * 512 + s.stn.toNat) := by
  rw [bitField_of_lt (stationCode_lt _), bitField_of_lt (muteCode_lt _), bitField_of_lt s.station.rate.isLt, bitField_of_lt s.stn.isLt]
  simp [packWord, Nat.add_assoc]

theorem classCode_eq (f : ClassFlags) :
    f.code * 2048 = f.beacon.toNat * 16384 + f.data.toNat * 8192 + f.gapreq.toNat * 4096 + f.replay.toNat * 2048 := by
  simp only [ClassFlags.code, flagBit_eq]
  omega

theorem statusWord1 {s : State} (share : s.setup.ownShare ≤ 512) :
    packWord [bitField 1 15 (flagBit s.setup.loopback), bitField 4 11 s.setup.classPriority.code, bitField 10 0 s.setup.ownShare] =
    BitVec.ofNat 16 (s.setup.loopback.toNat * 32768 + s.setup.classPriority.beacon.toNat * 16384 +
      s.setup.classPriority.data.toNat * 8192 + s.setup.classPriority.gapreq.toNat * 4096 +
      s.setup.classPriority.replay.toNat * 2048 + s.setup.ownShare) := by
  rw [bitField_flag, bitField_of_lt (classCode_lt _), bitField_of_lt (show s.setup.ownShare < 2 ^ 10 by omega)]
  have class_ := classCode_eq s.setup.classPriority
  simp only [packWord, List.sum_cons, List.sum_nil, Nat.reducePow, class_, Nat.add_zero, Nat.mul_one, Nat.add_assoc]

/-- Two fields side by side. -/
theorem pack_two {w v l a b : Nat} (fits : a < 2 ^ w) (fits' : b < 2 ^ v) :
    packWord [bitField w l a, bitField v 0 b] = BitVec.ofNat 16 (a * 2 ^ l + b) := by
  rw [bitField_of_lt fits, bitField_of_lt fits']
  simp [packWord]

theorem pack_word {a : Nat} (fits : a < 2 ^ 16) : packWord [bitField 16 0 a] = BitVec.ofNat 16 a := by
  rw [bitField_of_lt fits]
  simp [packWord]

theorem statusWord11 {s : State} (cells : s.ownClaimable < 2 ^ 10) :
    packWord [bitField 2 14 s.sched.state.code, bitField 3 11 (commitmentCode s.sched.commitment),
      bitField 1 10 (flagBit s.sched.beaconDuty), bitField 10 0 s.ownClaimable] =
    BitVec.ofNat 16 (s.sched.state.code * 16384 + commitmentCode s.sched.commitment * 2048 + s.sched.beaconDuty.toNat * 1024 +
      s.ownClaimable) := by
  rw [bitField_of_lt (schedCode_lt _), bitField_of_lt (commitmentCode_lt _), bitField_flag, bitField_of_lt cells]
  simp [packWord, Nat.add_assoc]

theorem statusWord14 {s : State} (records : s.delivery.queue.length ≤ 128) (sending : s.dutiesIn .sending ≤ 1) :
    packWord [bitField 8 8 s.delivery.queue.length, bitField 1 5 (s.dutiesIn .sending), bitField 5 0 (s.dutiesIn .eligible)] =
    BitVec.ofNat 16 (s.delivery.queue.length * 256 + s.dutiesIn .sending * 32 + s.dutiesIn .eligible) := by
  have eligible := dutiesIn_le s .eligible
  rw [bitField_of_lt (show s.delivery.queue.length < 2 ^ 8 by omega), bitField_of_lt (show s.dutiesIn .sending < 2 ^ 1 by omega),
    bitField_of_lt (show s.dutiesIn .eligible < 2 ^ 5 by omega)]
  simp [packWord, Nat.add_assoc]

/-- The words of STATUS with their fields side by side (Table 11.6). -/
theorem statusWords_eq {s : State} (mode : ModeSound s) (setup : SetupSound s) (store : StoreSound s)
    (submission : SubmissionSound s) (delivery : DeliverySound s) (wire : WireSound s) : s.statusWords =
      [BitVec.ofNat 16 (s.station.state.code * 8192 + muteCode s.station.muteReason * 2048 + s.station.rate.toNat * 512 + s.stn.toNat),
        BitVec.ofNat 16 (s.setup.loopback.toNat * 32768 + s.setup.classPriority.beacon.toNat * 16384 +
          s.setup.classPriority.data.toNat * 8192 + s.setup.classPriority.gapreq.toNat * 4096 +
          s.setup.classPriority.replay.toNat * 2048 + s.setup.ownShare),
        BitVec.ofNat 16 (s.setup.reqBase * 256 + s.setup.repairBase),
        BitVec.ofNat 16 (s.setup.attemptLimit * 4096 + s.setup.repairTimeout),
        BitVec.ofNat 16 s.setup.beaconInterval,
        BitVec.ofNat 16 s.setup.listenPeriod,
        BitVec.ofNat 16 (s.setup.dqAeLevel * 256 + s.setup.dqAfOffset),
        BitVec.ofNat 16 (s.setup.initialEpoch.toNat * 256 + s.submission.ownEpoch.toNat),
        s.submission.nextSeq,
        s.submission.nextUntx,
        BitVec.ofNat 16 (s.submission.queue.length * 1024 + s.ownFree),
        BitVec.ofNat 16 (s.sched.state.code * 16384 + commitmentCode s.sched.commitment * 2048 + s.sched.beaconDuty.toNat * 1024 +
          s.ownClaimable),
        BitVec.ofNat 16 (s.sched.abandons * 1024 + s.peerFree),
        BitVec.ofNat 16 (s.dutiesIn .delay * 1024 + s.peerClaimable),
        BitVec.ofNat 16 (s.delivery.queue.length * 256 + s.dutiesIn .sending * 32 + s.dutiesIn .eligible)] := by
  obtain ⟨ownShare, reqBase, repairBase, timeout, limit, beacon, listen, dqAe, dqAf⟩ := setup
  obtain ⟨ownFree, ownClaimable, peerFree, peerClaimable⟩ := cell_counts store
  have queue := submission.room
  have abandons := mode.abandons
  have delays := dutiesIn_le s .delay
  have records : s.delivery.queue.length ≤ 128 := delivery.size
  simp only [Config.dataQueueSize, Config.muteLimit] at queue abandons
  rw [State.statusWords, statusWord0, statusWord1 ownShare.2, pack_two (by omega) (by omega), pack_two (by omega) (by omega),
    pack_word (by omega), pack_word (by omega), pack_two (by omega) (by omega),
    pack_two s.setup.initialEpoch.isLt s.submission.ownEpoch.isLt, pack_two (by omega) ownFree, statusWord11 ownClaimable,
    pack_two (by omega) peerFree, pack_two (by omega) peerClaimable, statusWord14 records (dutiesIn_sending wire)]
  rfl

/-! ### READ_CONTEXT -/

theorem contextCode_lt (x : ContextState) : x.code < 2 ^ 2 := by cases x <;> decide

theorem joinBytes_eq (a b : Byte) : joinBytes a b = BitVec.ofNat 16 (a.toNat * 256 + b.toNat) := by
  refine BitVec.eq_of_toNat_eq ?_
  have := a.isLt
  have := b.isLt
  rw [joinBytes_toNat, BitVec.toNat_ofNat]
  omega

theorem contextWord0 (c : Context) :
    packWord [bitField 1 8 (flagBit c.trackerHeld), bitField 1 7 (flagBit c.silenceTimer.isSome), bitField 1 6 (flagBit c.silent),
      bitField 1 5 (flagBit c.heardSinceReset), bitField 1 4 (flagBit c.restartPending), bitField 2 0 c.state.code] =
    BitVec.ofNat 16 (c.trackerHeld.toNat * 256 + c.silenceTimer.isSome.toNat * 128 + c.silent.toNat * 64 +
      c.heardSinceReset.toNat * 32 + c.restartPending.toNat * 16 + c.state.code) := by
  simp only [bitField_flag]
  rw [bitField_of_lt (contextCode_lt _)]
  simp [packWord, Nat.add_assoc]

theorem exec_readContext {s : State} (ready : HostReady s) (w : Word) (inside : w.toNat ≤ 31) :
    exec (.readContext w) s = .next (s.answered .done (s.ctx (w.setWidth 5)).words) := by
  refine congrArg Host.Outcome.next (issue_doneWith ready (c := .readContext) (args := [w]) rfl (if_pos inside) ?_)
  exact (by decide : 6 < 256)

theorem exec_status {s : State} (ready : HostReady s) : exec .status s = .next (s.answered .done s.statusWords) :=
  congrArg Host.Outcome.next (issue_doneWith ready (c := .status) (args := []) rfl rfl (show 15 < 256 by decide))

theorem setWidth_station (o : Station) : ((o.setWidth 16 : Word).setWidth 5 : Station) = o := by
  refine BitVec.eq_of_toNat_eq ?_
  have := o.isLt
  simp only [BitVec.toNat_setWidth]
  omega

/-- Settles O30: the words answered are the packed fields, and nothing but the response buffer changes. -/
theorem readsAnswerAndChangeNothing : Obligations.ReadsAnswerAndChangeNothing := by
  intro s ready
  refine ⟨fun mode setup store submission delivery wire => ?_, fun o => ?_, fun w outside => ?_, ?_, ?_⟩
  · rw [exec_status ready, statusWords_eq mode setup store submission delivery wire]
    rcases s.station.state with _ | _ | _ | _ | _ | _ <;> rcases s.station.muteReason with _ | _ | _ <;>
      rcases s.sched.state with _ | _ | _ | _ <;> rcases s.sched.commitment with _ | ⟨_ | _ | _ | _, _⟩ <;> rfl
  · have small : (o.setWidth 16 : Word).toNat ≤ 31 := by
      have := o.isLt
      simp only [BitVec.toNat_setWidth]
      omega
    rw [exec_readContext ready _ small, setWidth_station, Context.words, contextWord0, joinBytes_eq]
    rcases (s.ctx o).state with _ | _ | _ | _ <;> rfl
  · exact congrArg Host.Outcome.next (issue_refused ready (c := .readContext) (args := [w]) rfl (if_neg (Nat.not_le.mpr outside)))
  · exact congrArg Host.Outcome.next (issue_doneWith ready (c := .readCounters) (args := []) rfl rfl (show 10 < 256 by decide))
  · refine congrArg Host.Outcome.next ((issue_doneWith ready (c := .readEvents) (args := []) rfl rfl (show 3 < 256 by decide)).trans ?_)
    simp only [Events.words, BitVec.ofNat_toNat]

end Sys2Proof.Machine
end

section
/-! The turn of the Delivery Engine (O36) and the takes on the delivery channel (O37). -/

open Sys2Proof

namespace Sys2Proof.Machine

set_option Elab.async false

/-! ### Rotation over the station numbers -/

theorem rotation_getElem (n : Station) {i : Nat} (h : i < (rotation n).length) : (rotation n)[i] = n + BitVec.ofNat 5 (i + 1) := by
  simp [rotation]

/-- A search upward from the number after `n` finds the first number that will do. -/
theorem find_rotation {n o : Station} {p : Station → Bool} (good : p o = true)
    (first : ∀ q : Station, (q - n - 1).toNat < (o - n - 1).toNat → p q = false) : (rotation n).find? p = some o := by
  have length : (rotation n).length = 32 := by simp [rotation]
  refine List.find?_eq_some_iff_getElem.mpr ⟨good, (o - n - 1).toNat, by omega, ?_, fun j lt => ?_⟩
  · rw [rotation_getElem]
    bv_omega
  · rw [rotation_getElem, first _ (by bv_omega)]
    rfl

/-- A search that finds a number finds the first that will do. -/
theorem rotation_find {n o : Station} {p : Station → Bool} (h : (rotation n).find? p = some o) :
    p o = true ∧ ∀ q : Station, (q - n - 1).toNat < (o - n - 1).toNat → p q = false := by
  have length : (rotation n).length = 32 := by simp [rotation]
  obtain ⟨good, i, lt, here, before⟩ := List.find?_eq_some_iff_getElem.mp h
  rw [rotation_getElem] at here
  refine ⟨good, fun q lt' => ?_⟩
  have place : (o - n - 1).toNat = i := by rw [← here]; bv_omega
  rw [place] at lt'
  have none := before (q - n - 1).toNat lt'
  rw [rotation_getElem, show n + BitVec.ofNat 5 ((q - n - 1).toNat + 1) = q by bv_omega] at none
  simpa using none

theorem mem_rotation (n o : Station) : o ∈ rotation n := by
  refine List.mem_map.mpr ⟨(o - n - 1).toNat, by simp; omega, ?_⟩
  bv_omega

theorem rotation_find_none {n : Station} {p : Station → Bool} (h : ∀ q, p q = false) : (rotation n).find? p = none :=
  List.find?_eq_none.mpr fun q _ => by simp [h q]

/-! ### What a context is ready for -/

theorem ready_synced {s : State} {o : Station} (synced : (s.ctx o).isSynced = true) : s.ready o =
    if (s.ctx o).restartPending then .restart
    else if s.store.deliverable (s.keyOf o (s.ctx o).nextDue) then .message
    else if s.lostReportable o (s.ctx o).nextDue then .lost
    else .no := by
  unfold State.ready
  dsimp only
  rcases state : (s.ctx o).state with _ | _ | _ | _
  · simp [Context.isSynced, state] at synced
  · rfl
  · rfl
  · simp [Context.isSynced, state] at synced

theorem ready_own {s : State} {o : Station} (own : (s.ctx o).state = .own) :
    s.ready o = if offset (s.ctx o).nextDue (s.ctx o).horizon ≤ 32767 then .message else .no := by
  unfold State.ready
  dsimp only
  rw [own]

theorem ready_unsynced {s : State} {o : Station} (unsynced : (s.ctx o).state = .unsynced) : s.ready o = .no := by
  unfold State.ready
  dsimp only
  rw [unsynced]

theorem deliverable_of_find {st : Store} {k : Key} : st.deliverable k = true ↔ ∃ e, st.find k = some e ∧ e.pins.due = true := by
  cases found : st.find k with
  | none => simp [(Store.lookup_of_absent found).2.2.1]
  | some e => simp [(Store.lookup_of_find found).2.2.1]

theorem extent_of_bounded {c : Context} (h : c.Bounded) : c.extent = (c.horizon + 1 - c.nextDue).toNat := if_pos h.horizon

/-- Which numbers are lost-reportable in a context within its bounds (R91). -/
theorem lostReportable_iff {s : State} {o : Station} (bounded : (s.ctx o).Bounded) (n : SeqNum) : s.lostReportable o n = true ↔
    (n - (s.ctx o).nextDue).toNat < ((s.ctx o).horizon + 1 - (s.ctx o).nextDue).toNat ∧
      ((s.store.find { origin := o, epoch := (s.ctx o).epoch, seq := n } = none ∧
          (n - (s.ctx o).nextDue).toNat < ((s.ctx o).lossFloor - (s.ctx o).nextDue).toNat) ∨
        ∃ e : Entry, s.store.find { origin := o, epoch := (s.ctx o).epoch, seq := n } = some e ∧ e.pins.due = false) := by
  simp only [State.lostReportable, extent_of_bounded bounded, Bool.and_eq_true, Bool.or_eq_true, decide_eq_true_eq, and_assoc]
  refine and_congr_right fun _ => ?_
  change _ = true ∧ (_ ∨ s.store.present ⟨o, (s.ctx o).epoch, n⟩ = true) ↔ _
  rw [Store.present_eq_isSome, State.keyOf]
  cases found : s.store.find ⟨o, (s.ctx o).epoch, n⟩ with
  | none => simp [(Store.lookup_of_absent found).2.2.1, offset]
  | some e => simp [(Store.lookup_of_find found).2.2.1]

/-! ### The run of a LOST record -/

/-- The run counted holds lost-reportable numbers alone, and ends at the bound or before a number that is none (R95). -/
theorem lostRun_spec (s : State) (o : Station) (fuel : Nat) (n : SeqNum) : s.lostRun o fuel n ≤ fuel ∧
    (∀ i, i < s.lostRun o fuel n → s.lostReportable o (n + BitVec.ofNat 16 i) = true) ∧
    (s.lostRun o fuel n = fuel ∨ s.lostReportable o (n + BitVec.ofNat 16 (s.lostRun o fuel n)) = false) := by
  induction fuel generalizing n with
  | zero => exact ⟨Nat.le_refl 0, nofun, .inl rfl⟩
  | succ fuel ih =>
    obtain ⟨bound, reportable, ends⟩ := ih (n + 1)
    unfold State.lostRun
    split
    · rename_i here
      have shift (i : Nat) : n + BitVec.ofNat 16 (i + 1) = n + 1 + BitVec.ofNat 16 i := by bv_omega
      refine ⟨Nat.succ_le_succ bound, fun i lt => ?_, ends.imp (congrArg Nat.succ) fun h => by rw [shift]; exact h⟩
      cases i with
      | zero => simpa using here
      | succ i => rw [shift]; exact reportable i (Nat.lt_of_succ_lt_succ lt)
    · rename_i no
      refine ⟨Nat.zero_le _, nofun, .inr ?_⟩
      simpa using no

theorem extent_le (c : Context) : c.extent ≤ 32768 := by
  unfold Context.extent
  split <;> omega

/-- The LOST record's count (R95): 1 to 32767, cut there at a longer run (log entry 22). -/
theorem lostRun_of_ready {s : State} {o : Station} (here : s.lostReportable o (s.ctx o).nextDue = true) :
    ∃ n, s.lostRun o (min (s.ctx o).extent Config.maxLost) (s.ctx o).nextDue = n ∧ 1 ≤ n ∧ n ≤ 32767 ∧
      (∀ i, i < n → s.lostReportable o ((s.ctx o).nextDue + BitVec.ofNat 16 i) = true) ∧
      (n = 32767 ∨ s.lostReportable o ((s.ctx o).nextDue + BitVec.ofNat 16 n) = false) := by
  obtain ⟨bound, reportable, ends⟩ := lostRun_spec s o (min (s.ctx o).extent Config.maxLost) (s.ctx o).nextDue
  refine ⟨_, rfl, ?_, Nat.le_trans bound (Nat.min_le_right _ _), reportable, ?_⟩
  · have some : 0 < (s.ctx o).extent := by
      simp only [State.lostReportable, Bool.and_eq_true, decide_eq_true_eq] at here
      omega
    obtain ⟨fuel, eq⟩ : ∃ fuel, min (s.ctx o).extent Config.maxLost = fuel + 1 :=
      ⟨min (s.ctx o).extent Config.maxLost - 1, by simp only [Config.maxLost]; omega⟩
    rw [eq, State.lostRun, if_pos here]
    omega
  · have small := extent_le (s.ctx o)
    rcases ends with full | stop
    · rw [full]
      simp only [Config.maxLost]
      by_cases long : 32767 ≤ (s.ctx o).extent
      · exact .inl (Nat.min_eq_right long)
      · refine .inr ?_
        rw [Nat.min_eq_left (Nat.le_of_not_le long)]
        have outside : ¬ offset (s.ctx o).nextDue ((s.ctx o).nextDue + BitVec.ofNat 16 (s.ctx o).extent) < (s.ctx o).extent := by
          unfold offset
          bv_omega
        simp [State.lostReportable, outside]
    · exact .inr stop

/-! ### The turn -/

theorem place_of_heldOnly {s t : State} (h : HeldOnly s t) (o : Station) : (t.ctx o).place = (s.ctx o).place := by
  rw [h o]; rfl

theorem decideState_place (s : State) (o p : Station) : ((s.decideState o).ctx p).place = (s.ctx p).place := by
  unfold State.decideState
  split
  · rw [State.ctx_setCtx]
    split
    · rename_i eq; rw [eq]; rfl
    · rfl
  · rfl

theorem settle_place (s : State) (o : Station) (was : ContextState) (must : Bool) (p : Station) :
    ((s.settle o was must).ctx p).place = (s.ctx p).place := by
  unfold State.settle
  dsimp only
  split
  · rw [place_of_heldOnly (changeNotice_heldOnly _ o), decideState_place]
  · exact decideState_place s o p

/-- An advance claim moves the place of its context (R43). -/
theorem advance_place (s : State) (o : Station) (n : SeqNum) : ((s.advance o n).ctx o).place = ((s.ctx o).advanceTo n).place := by
  unfold State.advance
  dsimp only
  split
  · rw [settle_place, State.ctx_setCtx, if_pos rfl]
  · rw [State.ctx_setCtx, if_pos rfl]

/-- The place after an advance claim, field by field. -/
theorem advance_fields (s : State) (o : Station) (n : SeqNum) : ((s.advance o n).ctx o).nextDue = n ∧
    ((s.advance o n).ctx o).horizon = (s.ctx o).horizon ∧ ((s.advance o n).ctx o).lossFloor = later n (s.ctx o).lossFloor := by
  have place := advance_place s o n
  simp only [Context.place, Prod.mk.injEq] at place
  exact ⟨place.2.1, place.2.2.1, place.2.2.2⟩

/-- What the turn leaves of the queue and the pointer (R93, R99). -/
theorem serve_delivery {s : State} {o : Station} (ready : s.ready o ≠ .no) :
    (s.serve o).delivery = { s.delivery with queue := s.delivery.queue ++ s.readyRecord o, lastServed := o } := by
  have queue := serve_queue s o
  have rest : (s.serve o).delivery.readPos = s.delivery.readPos ∧ (s.serve o).delivery.lastServed = o := by
    cases h : s.ready o with
    | message =>
      have before (st : Store) : ((s.withDelivery { s.delivery with lastServed := o }).applyStore st).delivery =
          { s.delivery with lastServed := o } := applyStore_only (s.withDelivery _) st .delivery (by decide)
      have all : (s.serve o).delivery = (((s.withDelivery { s.delivery with lastServed := o }).applyStore
          (s.store.hand (s.keyOf o (s.ctx o).nextDue)).2).enqueue (.message (s.keyOf o (s.ctx o).nextDue))).delivery := by
        simp only [State.serve, h]
        exact advance_only _ _ _ .delivery (by decide)
      rw [all, State.enqueue, State.withDelivery_delivery, before]
      exact ⟨rfl, rfl⟩
    | lost =>
      have all : (s.serve o).delivery = { s.delivery with
          queue := s.delivery.queue ++ [.lost o (s.ctx o).epoch (s.ctx o).nextDue
            ((s.withDelivery { s.delivery with lastServed := o }).lostRun o (min (s.ctx o).extent Config.maxLost) (s.ctx o).nextDue)]
          lastServed := o } := by
        simp only [State.serve, h]
        exact advance_only _ _ _ .delivery (by decide)
      rw [all]
      exact ⟨rfl, rfl⟩
    | restart =>
      simp only [State.serve, h]
      exact ⟨rfl, rfl⟩
    | no => exact absurd h ready
  cases d : (s.serve o).delivery with
  | mk q r l =>
    rw [d] at queue rest
    obtain ⟨rfl, rfl⟩ := rest
    simp only at queue
    rw [queue]

theorem serve_message {s : State} {o : Station} (ready : s.ready o = .message) :
    ((s.serve o).ctx o).nextDue = (s.ctx o).nextDue + 1 ∧ ((s.serve o).ctx o).horizon = (s.ctx o).horizon ∧
      ((s.serve o).ctx o).lossFloor = later ((s.ctx o).nextDue + 1) (s.ctx o).lossFloor ∧
      (s.serve o).events = s.events ∧ (s.serve o).counters = s.counters := by
  have eq : ∃ u, Only [.delivery, .store, .pool, .sched] s u ∧ s.serve o = u.advance o ((s.ctx o).nextDue + 1) := by
    refine ⟨_, ?_, by simp only [State.serve, ready]; rfl⟩
    exact (((withDelivery_only s _).then (applyStore_only _ _)).then (withDelivery_only _ _)).mono
  obtain ⟨u, only, eq⟩ := eq
  have ctx : u.ctx o = s.ctx o := State.ctx_congr (only .contexts (by decide)) o
  have told := advance_only u o ((s.ctx o).nextDue + 1)
  obtain ⟨nextDue, horizon, floor⟩ := advance_fields u o ((s.ctx o).nextDue + 1)
  rw [eq]
  exact ⟨nextDue, horizon.trans (by rw [ctx]), floor.trans (by rw [ctx]),
    (told .events (by decide)).trans (only .events (by decide)), (told .counters (by decide)).trans (only .counters (by decide))⟩

theorem serve_lost {s : State} {o : Station} (ready : s.ready o = .lost) {n : Nat}
    (run : s.lostRun o (min (s.ctx o).extent Config.maxLost) (s.ctx o).nextDue = n) :
    ((s.serve o).ctx o).nextDue = (s.ctx o).nextDue + BitVec.ofNat 16 n ∧ ((s.serve o).ctx o).horizon = (s.ctx o).horizon ∧
      ((s.serve o).ctx o).lossFloor = later ((s.ctx o).nextDue + BitVec.ofNat 16 n) (s.ctx o).lossFloor ∧
      (s.serve o).events = (s.raise .loss).events ∧
      (s.serve o).counters = { s.counters with lostSeqs := BitVec.ofNat 16 (min (s.counters.lostSeqs.toNat + n) 65535) } := by
  have eq : s.serve o = ((((s.withDelivery { s.delivery with lastServed := o }).enqueue
      (.lost o (s.ctx o).epoch (s.ctx o).nextDue n)).raise .loss).addCount .lostSeqs n).advance o
        ((s.ctx o).nextDue + BitVec.ofNat 16 n) := by
    have same := lostRun_withDelivery s { s.delivery with lastServed := o } o (min (s.ctx o).extent Config.maxLost) (s.ctx o).nextDue
    rw [run] at same
    simp only [State.serve, ready, State.makeLost]
    rw [← same]
    rfl
  rw [eq]
  obtain ⟨nextDue, horizon, floor⟩ := advance_fields ((((s.withDelivery { s.delivery with lastServed := o }).enqueue
      (.lost o (s.ctx o).epoch (s.ctx o).nextDue n)).raise .loss).addCount .lostSeqs n) o ((s.ctx o).nextDue + BitVec.ofNat 16 n)
  exact ⟨nextDue, horizon, floor, advance_only _ _ _ .events (by decide), advance_only _ _ _ .counters (by decide)⟩

theorem exec_turn {s : State} (room : s.delivery.queue.length < 128) {o : Station} (next : s.nextReady = some o) :
    exec .deliveryTurn s = .next (s.serve o) := by
  change execDeliveryTurn s = _
  rw [execDeliveryTurn, if_pos (show s.delivery.queue.length < Config.deliverySize from room), next]

/-- Settles O36: the first ready context in rotation gets the one record it is ready for. -/
theorem deliveryTurnServes : Obligations.DeliveryTurnServes := by
  refine ⟨fun s o => ⟨ready_unsynced, ready_own, fun synced pending => ?_, fun synced settled => ⟨fun e found due => ?_, fun notDue => ?_⟩,
    lostReportable_iff⟩, fun s => ⟨fun full => ?_, fun none => ?_, fun room o ready first => ?_⟩⟩
  · rw [ready_synced synced, if_pos pending]
  · rw [ready_synced synced, if_neg (by simp [settled]), 
      if_pos (show s.store.deliverable (s.keyOf o (s.ctx o).nextDue) = true from deliverable_of_find.mpr ⟨e, found, due⟩)]
  · have not : ¬ s.store.deliverable (s.keyOf o (s.ctx o).nextDue) = true := fun h => by
      obtain ⟨e, found, due⟩ := deliverable_of_find.mp h
      rw [notDue e found] at due
      cases due
    rw [ready_synced synced, if_neg (by simp [settled]), if_neg not]
  · exact if_neg (Nat.not_lt.mpr full)
  · change execDeliveryTurn s = _
    have : s.nextReady = Option.none := rotation_find_none fun q => by rw [none q]; rfl
    rw [execDeliveryTurn, this]
    dsimp only
    rw [ite_self]
  · have next : s.nextReady = some o :=
      find_rotation (bne_iff_ne.mpr ready) fun q before => by rw [first q before]; rfl
    have only := serve_only s o
    have delivery := serve_delivery ready
    have store := serve_store s o
    have duties : (s.serve o).duties = s.duties := only .duties (by decide)
    obtain ⟨r, record⟩ : ∃ r, s.readyRecord o = [r] := by
      unfold State.readyRecord
      cases h : s.ready o with
      | no => exact absurd h ready
      | _ => exact ⟨_, rfl⟩
    rw [record] at delivery
    refine ⟨s.serve o, r, exec_turn room next, delivery, only .submission (by decide), only .trunk (by decide),
      only .station (by decide), only .control (by decide), only .out (by decide), only .pending (by decide), duties,
      fun p other => (serve_ctx_other s other).symm, fun message => ?_, fun lost => ?_, fun restart => ?_⟩
    · rw [if_pos message] at store
      simp only [State.readyRecord, message, List.cons.injEq, and_true] at record
      exact ⟨record.symm, store, serve_message message⟩
    · rw [if_neg (by rw [lost]; nofun)] at store
      have here : s.lostReportable o (s.ctx o).nextDue = true := by
        have synced : (s.ctx o).isSynced = true := by
          rcases state : (s.ctx o).state with _ | _ | _ | _
          · rw [ready_unsynced state] at lost; cases lost
          · simp [Context.isSynced, state]
          · simp [Context.isSynced, state]
          · rw [ready_own state] at lost; split at lost <;> cases lost
        rw [ready_synced synced] at lost
        split at lost
        · cases lost
        · split at lost
          · cases lost
          · split at lost
            · assumption
            · cases lost
      obtain ⟨n, run, low, high, reportable, ends⟩ := lostRun_of_ready here
      simp only [State.readyRecord, lost, List.cons.injEq, and_true, run] at record
      exact ⟨n, low, high, reportable, ends, record.symm, store, serve_lost lost run⟩
    · rw [if_neg (by rw [restart]; nofun)] at store
      simp only [State.readyRecord, restart, List.cons.injEq, and_true] at record
      have eq : s.serve o = (s.withDelivery { s.delivery with lastServed := o }).makeRestart o := by
        simp only [State.serve, restart]
      refine ⟨record.symm, store, ?_, by rw [eq]; rfl, by rw [eq]; rfl, by rw [eq]; rfl⟩
      rw [eq, State.makeRestart, State.advanceRestart, State.ctx_setCtx, if_pos rfl]
      rfl

/-! ### The delivery channel -/

theorem payloadWords_eq (l : List Byte) : payloadWords l = wordsOf 0 l := by
  match l with
  | [] => rfl
  | [a] => rw [payloadWords, wordsOf, joinBytes_eq, Nat.mul_comm]
  | a :: b :: rest => rw [payloadWords, wordsOf, joinBytes_eq, Nat.mul_comm, payloadWords_eq rest]

/-- The words of a record in the layout of Table 11.2. -/
theorem record_words {st : Store} {r : Record} {words : List Word}
    (h : (∃ (k : Key) (e : Entry), r = .message k ∧ st.find k = some e ∧ 1 ≤ e.payload.length ∧ e.payload.length ≤ 120 ∧
        words = [BitVec.ofNat 16 (256 + k.origin.toNat),
          BitVec.ofNat 16 (256 * k.epoch.toNat + e.payload.length), k.seq] ++ wordsOf 0 e.payload) ∨
      (∃ (o : Station) (e : Epoch) (first : SeqNum) (count : Nat), r = .lost o e first count ∧
        words = [BitVec.ofNat 16 (512 + o.toNat), BitVec.ofNat 16 e.toNat, first, BitVec.ofNat 16 count]) ∨
      (∃ (o : Station) (old new : Epoch) (count : Word), r = .restart o old new count ∧
        words = [BitVec.ofNat 16 (768 + o.toNat), BitVec.ofNat 16 (256 * old.toNat + new.toNat), count])) :
    r.words st = words := by
  rcases h with ⟨k, e, rfl, found, low, high, rfl⟩ | ⟨o, e, first, count, rfl, rfl⟩ | ⟨o, old, new, count, rfl, rfl⟩
  · have size : (BitVec.ofNat 8 e.payload.length).toNat = e.payload.length := by rw [BitVec.toNat_ofNat]; omega
    rw [Record.words, (Store.lookup_of_find found).2.1, Record.firstWord, kindWord_eq 1 (by decide), ReadAnswer.length,
      ReadAnswer.payload, payloadWords_eq, joinBytes_eq, size, Nat.mul_comm k.epoch.toNat]
    rfl
  · rw [Record.words, Record.firstWord, kindWord_eq 2 (by decide), joinBytes_eq]
    simp
  · rw [Record.words, Record.firstWord, kindWord_eq 3 (by decide), joinBytes_eq, Nat.mul_comm old.toNat]

theorem takeDelivery_word {s : State} {r : Record} {rest : List Record} (queue : s.delivery.queue = r :: rest) {w : Word}
    (word : (r.words s.store)[s.delivery.readPos]? = some w) : s.takeDelivery =
      if s.delivery.readPos + 1 < (r.words s.store).length then
        (s.withOut { rd := w, rlast := false }).withDelivery { s.delivery with readPos := s.delivery.readPos + 1 }
      else (s.withOut { rd := w, rlast := true }).dropHead := by
  have this : (r.words s.store).getD s.delivery.readPos 0 = w := by rw [List.getD_eq_getElem?_getD, word]; rfl
  unfold State.takeDelivery
  rw [queue]
  dsimp only
  rw [this]
  by_cases more : s.delivery.readPos + 1 < (r.words s.store).length
  · rw [if_pos more, if_neg (Nat.not_le.mpr more)]
    rfl
  · rw [if_neg more, if_pos (Nat.le_of_not_lt more)]
    rfl

/-- The head record leaves, whatever has been taken of it. -/
theorem dropHead_taken {s : State} {r : Record} {rest : List Record} (queue : s.delivery.queue = r :: rest) (out last : ReadPins)
    (p : Nat) : (((s.withOut out).withDelivery { s.delivery with readPos := p }).withOut last).dropHead = (s.withOut last).dropHead := by
  simp only [State.dropHead, State.withOut, State.withDelivery, queue]

/-- The takes of the head record, from any read position (R100, R101). -/
theorem takes_record (n : Nat) {s : State} (released : s.station.mrst = false) {r : Record} {rest : List Record}
    (queue : s.delivery.queue = r :: rest) {w : Word} (word : (r.words s.store)[s.delivery.readPos + n]? = some w) :
    execAll (List.replicate (n + 1) .deliveryTake) s = .next (
      if s.delivery.readPos + n + 1 < (r.words s.store).length then
        (s.withOut { rd := w, rlast := false }).withDelivery { s.delivery with readPos := s.delivery.readPos + n + 1 }
      else (s.withOut { rd := w, rlast := true }).dropHead) := by
  have inside : s.delivery.readPos + n < (r.words s.store).length := (List.getElem?_eq_some_iff.mp word).1
  induction n generalizing s with
  | zero =>
    rw [List.replicate_succ, execAll_cons (exec_deliveryTake_running released), takeDelivery_word queue word]
    rfl
  | succ n ih =>
    have here : s.delivery.readPos < (r.words s.store).length := by omega
    have first : ∃ out, s.takeDelivery = (s.withOut out).withDelivery { s.delivery with readPos := s.delivery.readPos + 1 } :=
      ⟨_, (takeDelivery_word queue (List.getElem?_eq_getElem here)).trans (if_pos (by omega))⟩
    obtain ⟨out, first⟩ := first
    have shift : s.delivery.readPos + 1 + n = s.delivery.readPos + (n + 1) := by omega
    rw [← shift] at word inside ⊢
    rw [List.replicate_succ, execAll_cons (exec_deliveryTake_running released), first]
    refine (ih (s := (s.withOut out).withDelivery { s.delivery with readPos := s.delivery.readPos + 1 }) released queue word
      inside).trans (congrArg Host.Outcome.next ?_)
    rw [dropHead_taken queue]
    rfl

/-- Settles O37: each take returns the next word of the head record, the last one with RLAST as the record leaves. -/
theorem takesReadRecord : Obligations.TakesReadRecord := by
  intro s r rest words released queue start layout n w word
  have eq := record_words layout
  subst eq
  have takes := takes_record n released queue (w := w) (by rw [start, Nat.zero_add]; exact word)
  rw [start, Nat.zero_add] at takes
  rw [takes]
  split
  · rfl
  · cases r <;> simp only [State.dropHead, State.withOut, State.withDelivery, queue]

end Sys2Proof.Machine
end

section
/-! A frame sent is received as it was sent, and a wrong bit is found by the check (O40, O41). -/

open Sys2Proof

namespace Sys2Proof.Machine

set_option Elab.async false

/-! ### The receive path on whole bytes (R152) -/

/-- The receive path in ASSEMBLE with these whole bytes taken and nothing amiss. -/
def RxPath.gathered (bs : List Byte) : RxPath := { RxPath.at .assemble with bytes := bs }

/-- The preamble and the start delimiter of a burst (R147). -/
def leadIn : List Bool := [true, false, true, false, true, false, true, false] ++ bitsOfByte delimiter

theorem leadIn_cells : (RxPath.at .waiting).cells (leadIn.map BurstCell.data) = RxPath.gathered [] := by
  decide

theorem gathered_byte {bs : List Byte} (room : bs.length < Config.maxFrame) (b : Byte) :
    (RxPath.gathered bs).cells ((bitsOfByte b).map BurstCell.data) = RxPath.gathered (bs ++ [b]) := by
  have whole := byteOfBits_reverse_bitsOfByte b
  simp only [bitsOfByte, List.reverse_cons, List.reverse_nil, List.nil_append, List.cons_append] at whole
  simp only [bitsOfByte, List.map_cons, List.map_nil, RxPath.gathered, RxPath.at, RxPath.cells_cons, RxPath.cells_nil, RxPath.cell,
    RxPath.follow, Bool.false_or, bne_self_eq_false, reduceCtorEq, if_false, Bool.false_eq_true, beq_iff_eq, Nat.not_le.mpr room,
    List.length_cons, List.length_nil, Nat.reduceAdd, Nat.reduceEqDiff, if_true, whole]

theorem gathered_bytes (taken bs : List Byte) (room : taken.length + bs.length ≤ Config.maxFrame) :
    (RxPath.gathered taken).cells ((bs.flatMap bitsOfByte).map BurstCell.data) = RxPath.gathered (taken ++ bs) := by
  induction bs generalizing taken with
  | nil => simp
  | cons b bs ih =>
    rw [List.length_cons] at room
    rw [List.flatMap_cons, List.map_append, RxPath.cells_append, gathered_byte (by omega),
      ih _ (by rw [List.length_append, List.length_singleton]; omega), List.append_assoc, List.singleton_append]

/-- A burst of whole bytes, no more than a frame may have, is taken byte by byte. -/
theorem decisionOn_bytes {bs : List Byte} (room : bs.length ≤ Config.maxFrame) :
    decisionOn ((leadIn ++ bs.flatMap bitsOfByte).map BurstCell.data) = (RxPath.gathered bs).decide := by
  rw [decisionOn, List.map_append, RxPath.cells_append, leadIn_cells, gathered_bytes [] bs (by simpa using room),
    List.nil_append]

theorem decisionOn_lineCells {bs : List Byte} (room : bs.length ≤ Config.maxFrame) :
    decisionOn (lineCells bs) = (RxPath.gathered bs).decide := decisionOn_bytes room

/-! ### Frames read back field by field (R186) -/

theorem stationByte_toNat (n : Station) : (stationByte n).toNat = n.toNat := by
  rw [stationByte, BitVec.toNat_setWidth, Nat.mod_eq_of_lt (by have := n.isLt; omega)]

theorem setWidth_stationByte (n : Station) : (stationByte n).setWidth 5 = n :=
  BitVec.eq_of_toNat_eq (by rw [BitVec.toNat_setWidth, stationByte_toNat, Nat.mod_eq_of_lt n.isLt])

theorem lengthByte_toNat {n : Nat} (h : n ≤ Config.maxPayload) : (BitVec.ofNat 8 n).toNat = n := by
  rw [BitVec.toNat_ofNat, Nat.mod_eq_of_lt]
  have : n ≤ 120 := h
  omega

/-- A byte of a field in range 1 to 255 is not 0. -/
theorem lengthByte_ne_zero {n : Nat} (h : n ≤ Config.maxPayload) (positive : 1 ≤ n) : BitVec.ofNat 8 n ≠ 0#8 := fun z => by
  have := congrArg BitVec.toNat z
  rw [lengthByte_toNat h] at this
  simp only [BitVec.toNat_ofNat] at this
  omega

/-- The size of a frame's body by its kind (Table 8.2). -/
theorem wf_bytes_length {f : Frame} (wf : f.wf = true) : 3 ≤ f.bytes.length ∧ f.bytes.length ≤ Config.maxFrame := by
  cases f with
  | data origin epoch seq payload =>
    obtain ⟨low, high⟩ : 1 ≤ payload.length ∧ payload.length ≤ Config.maxPayload := wf_size wf
    have : payload.length ≤ 120 := high
    simp only [Frame.bytes, Frame.body, List.length_append, List.length_cons, List.length_nil, Config.maxFrame]
    omega
  | replay origin epoch seq replayer payload =>
    obtain ⟨low, high⟩ : 1 ≤ payload.length ∧ payload.length ≤ Config.maxPayload := wf_size wf
    have : payload.length ≤ 120 := high
    simp only [Frame.bytes, Frame.body, List.length_append, List.length_cons, List.length_nil, Config.maxFrame]
    omega
  | gapreq => exact ⟨by simp [Frame.bytes, Frame.body], by simp [Frame.bytes, Frame.body, Config.maxFrame]⟩
  | beacon => exact ⟨by simp [Frame.bytes, Frame.body], by simp [Frame.bytes, Frame.body, Config.maxFrame]⟩

/-- The check at the end of a frame is that of its body (R147, R148). -/
theorem check_of_frame (f : Frame) :
    frameCheck (f.bytes.take (f.bytes.length - 2)) = wordAt f.bytes (f.bytes.length - 2) := by
  have size : f.bytes.length - 2 = f.body.length := by simp [Frame.bytes]
  rw [size, wordAt, Frame.bytes, List.take_left]
  simp [byteAt, List.getD_eq_getElem?_getD]

/-- No cause of Table 8.4 holds of the bytes of a frame whose fields are in range. -/
theorem wf_clean {f : Frame} (wf : f.wf = true) : ∀ c ∈ allCauses, (RxPath.gathered f.bytes).hasCause c = false := by
  have station (n : Station) : n.toNat ≤ 31 := by have := n.isLt; omega
  obtain ⟨three, -⟩ := wf_bytes_length wf
  have check := check_of_frame f
  intro c _
  cases c with
  | noDelimiter => rfl
  | damaged => rfl
  | overLong => rfl
  | tooShort => exact decide_eq_false (Nat.not_lt.mpr three)
  | badCheck => simpa [RxPath.hasCause, RxPath.gathered] using check
  | _ =>
    cases f with
    | data origin epoch seq payload =>
      obtain ⟨low, high⟩ : 1 ≤ payload.length ∧ payload.length ≤ Config.maxPayload := wf_size wf
      simp [RxPath.hasCause, RxPath.gathered, RxPath.at, Frame.bytes, Frame.body, frameLength, lengthField, stationFields, byteAt,
        stationByte_toNat, station, lengthByte_toNat high, lengthByte_ne_zero high low, high] <;> omega
    | replay origin epoch seq replayer payload =>
      obtain ⟨low, high⟩ : 1 ≤ payload.length ∧ payload.length ≤ Config.maxPayload := wf_size wf
      simp [RxPath.hasCause, RxPath.gathered, RxPath.at, Frame.bytes, Frame.body, frameLength, lengthField, stationFields, byteAt,
        stationByte_toNat, station, lengthByte_toNat high, lengthByte_ne_zero high low, high] <;> omega
    | gapreq requester origin epoch first count =>
      obtain ⟨low, few⟩ : 1 ≤ count ∧ count ≤ Config.maxRun := by simpa [Frame.wf] using wf
      have high : count ≤ Config.maxPayload := few.trans (by decide)
      simp [RxPath.hasCause, RxPath.gathered, RxPath.at, Frame.bytes, Frame.body, frameLength, lengthField, stationFields, byteAt,
        stationByte_toNat, station, lengthByte_toNat high, lengthByte_ne_zero high low, few]
    | beacon =>
      simp [RxPath.hasCause, RxPath.gathered, RxPath.at, Frame.bytes, Frame.body, frameLength, lengthField, stationFields, byteAt,
        stationByte_toNat, station]

/-- The fields read from the bytes of a frame are those it was sent with (Table 11.1). -/
theorem readFrame_bytes {f : Frame} (wf : f.wf = true) : readFrame f.bytes = f := by
  cases f with
  | data origin epoch seq payload =>
    obtain ⟨-, high⟩ : 1 ≤ payload.length ∧ payload.length ≤ Config.maxPayload := wf_size wf
    simp [readFrame, Frame.bytes, Frame.body, byteAt, wordAt, stationAt, setWidth_stationByte, lengthByte_toNat high]
  | replay origin epoch seq replayer payload =>
    obtain ⟨-, high⟩ : 1 ≤ payload.length ∧ payload.length ≤ Config.maxPayload := wf_size wf
    simp [readFrame, Frame.bytes, Frame.body, byteAt, wordAt, stationAt, setWidth_stationByte, lengthByte_toNat high]
  | gapreq requester origin epoch first count =>
    obtain ⟨-, few⟩ : 1 ≤ count ∧ count ≤ Config.maxRun := by simpa [Frame.wf] using wf
    have high : count ≤ Config.maxPayload := few.trans (by decide)
    simp [readFrame, Frame.bytes, Frame.body, byteAt, wordAt, stationAt, setWidth_stationByte, lengthByte_toNat high]
  | beacon sender epoch nextSeq =>
    simp [readFrame, Frame.bytes, Frame.body, byteAt, wordAt, stationAt, setWidth_stationByte]

/-- A frame with fields in range is found good, as it was sent. -/
theorem decisionOn_frame {f : Frame} (wf : f.wf = true) : decisionOn (lineCells f.bytes) = .good f := by
  obtain ⟨-, size⟩ := wf_bytes_length wf
  have none : allCauses.any (RxPath.gathered f.bytes).hasCause = false := by simpa using wf_clean wf
  rw [decisionOn_lineCells size]
  simp only [RxPath.decide, none]
  exact congrArg Decision.good (readFrame_bytes wf)

/-- Settles O40: the path takes the cells byte by byte, no cause of Table 8.4 holds of the bytes, and each field is read where
Table 11.1 puts it. -/
theorem frameRoundTrip : Obligations.FrameRoundTrip :=
  ⟨readCell_drive, fun level => by cases level <;> rfl, fun _ wf => decisionOn_frame wf⟩

/-! ### The check register (R148) -/

/-- The generator flips the low bit, which the shift leaves 0. -/
theorem checkBit_lsb (c : BitVec 16) (b : Bool) : (checkBit c b).getLsbD 0 = (c.msb != b) := by
  unfold checkBit
  split
  · rename_i h
    simp [h]
  · rename_i h
    simpa using h

theorem checkBit_injective {c d : BitVec 16} {b : Bool} (h : checkBit c b = checkBit d b) : c = d := by
  have msb : c.msb = d.msb := by
    have low := congrArg (·.getLsbD 0) h
    simp only [checkBit_lsb] at low
    revert low
    cases c.msb <;> cases d.msb <;> cases b <;> decide
  have shifted : c <<< 1 = d <<< 1 := by
    unfold checkBit at h
    rw [msb] at h
    split at h
    · simpa [BitVec.xor_assoc] using congrArg (· ^^^ 0x1021#16) h
    · exact h
  refine BitVec.eq_of_getLsbD_eq fun i small => ?_
  rcases Nat.lt_or_ge i 15 with low | top
  · have bit := congrArg (·.getLsbD (i + 1)) shifted
    simp only [BitVec.getLsbD_shiftLeft, show i + 1 < 16 by omega, show ¬ i + 1 < 1 by omega, decide_true, decide_false,
      Bool.not_false, Bool.true_and, Nat.add_sub_cancel] at bit
    exact bit
  · obtain rfl : i = 15 := by omega
    simpa [BitVec.msb_eq_getLsbD_last] using msb

theorem checkBit_flip (c : BitVec 16) (b : Bool) : checkBit c b ≠ checkBit c (!b) := fun h => by
  have low := congrArg (·.getLsbD 0) h
  simp only [checkBit_lsb] at low
  revert low
  cases c.msb <;> cases b <;> decide

theorem foldl_checkBit_injective (bits : List Bool) {c d : BitVec 16} (h : bits.foldl checkBit c = bits.foldl checkBit d) :
    c = d := by
  induction bits generalizing c d with
  | nil => exact h
  | cons b bits ih => exact checkBit_injective (ih h)

/-- The bits of a word, most significant first, as its two bytes give them. -/
theorem wordBits (c : BitVec 16) : bitsOfByte (hiByte c) ++ bitsOfByte (loByte c) =
    [15, 14, 13, 12, 11, 10, 9, 8, 7, 6, 5, 4, 3, 2, 1, 0].map c.getLsbD := by
  simp [bitsOfByte, hiByte, loByte]

/-- A bit equal to the top bit of the register only shifts it. -/
theorem checkBit_own (c : BitVec 16) {k : Nat} (h : k < 16) :
    checkBit (c <<< k) (c.getLsbD (15 - k)) = c <<< (k + 1) := by
  have top : (c <<< k).msb = c.getLsbD (15 - k) := by
    rw [BitVec.msb_eq_getLsbD_last, BitVec.getLsbD_shiftLeft]
    simp [show ¬ 15 < k by omega]
  rw [checkBit, top, BitVec.shiftLeft_add]
  simp

/-- A register that takes its own bits ends at 0. -/
theorem foldl_checkBit_own (c : BitVec 16) : (bitsOfByte (hiByte c) ++ bitsOfByte (loByte c)).foldl checkBit c = 0 := by
  have step := fun k (h : k < 16) => checkBit_own c (k := k) h
  have start : checkBit c (c.getLsbD 15) = c <<< 1 := by simpa using step 0 (by omega)
  have full : c <<< 16 = 0 := BitVec.shiftLeft_eq_zero (by omega)
  have rest : ∀ k < 16, 0 < k → checkBit (c <<< k) (c.getLsbD (15 - k)) = c <<< (k + 1) := fun k h _ => step k h
  rw [wordBits]
  simp only [List.map_cons, List.map_nil, List.foldl_cons, List.foldl_nil, start]
  rw [step 1 (by omega), step 2 (by omega), step 3 (by omega), step 4 (by omega), step 5 (by omega), step 6 (by omega),
    step 7 (by omega), step 8 (by omega), step 9 (by omega), step 10 (by omega), step 11 (by omega), step 12 (by omega),
    step 13 (by omega), step 14 (by omega), step 15 (by omega), full]

/-- The register over a whole frame with its check (R148). -/
def residue (bits : List Bool) : BitVec 16 := bits.foldl checkBit 0xFFFF#16

theorem hiByte_joinBytes (a b : Byte) : hiByte (joinBytes a b) = a := by
  rw [joinBytes_eq, Nat.mul_comm]
  exact hiByte_word a b

theorem loByte_joinBytes (a b : Byte) : loByte (joinBytes a b) = b := by
  rw [joinBytes_eq, Nat.mul_comm]
  exact loByte_word a b

theorem residue_checked (body : List Byte) :
    residue ((body ++ [hiByte (frameCheck body), loByte (frameCheck body)]).flatMap bitsOfByte) = 0 := by
  rw [residue, List.flatMap_append, List.foldl_append]
  have own := foldl_checkBit_own (frameCheck body)
  rw [List.foldl_append] at own
  simpa [frameCheck] using own

theorem residue_flip (pre post : List Bool) (b : Bool) : residue (pre ++ b :: post) ≠ residue (pre ++ (!b) :: post) := by
  unfold residue
  simp only [List.foldl_append, List.foldl_cons]
  exact fun h => checkBit_flip _ b (foldl_checkBit_injective post h)

/-- Bytes whose last two are the check of those before leave no residue. -/
theorem residue_of_good {bs : List Byte} (size : 3 ≤ bs.length) (good : (RxPath.gathered bs).hasCause .badCheck = false) :
    residue (bs.flatMap bitsOfByte) = 0 := by
  have check : frameCheck (bs.take (bs.length - 2)) = wordAt bs (bs.length - 2) := by
    simpa [RxPath.hasCause, RxPath.gathered] using good
  have last : bs.drop (bs.length - 2) = [byteAt bs (bs.length - 2), byteAt bs (bs.length - 2 + 1)] := by
    rw [List.drop_eq_getElem_cons (by omega), List.drop_eq_getElem_cons (by omega), List.drop_eq_nil_of_le (by omega), byteAt,
      byteAt, List.getD_eq_getElem?_getD, List.getD_eq_getElem?_getD, List.getElem?_eq_getElem (by omega),
      List.getElem?_eq_getElem (by omega)]
    rfl
  have parts : bs = bs.take (bs.length - 2) ++ [hiByte (frameCheck (bs.take (bs.length - 2))),
      loByte (frameCheck (bs.take (bs.length - 2)))] := by
    rw [check, wordAt, hiByte_joinBytes, loByte_joinBytes, ← last, List.take_append_drop]
  rw [parts]
  exact residue_checked _

/-! ### Bits as bytes -/

theorem bitsOfByte_byteOfBits : ∀ a b c d e f g h : Bool, bitsOfByte (byteOfBits [h, g, f, e, d, c, b, a]) = [a, b, c, d, e, f, g, h] := by
  decide

/-- Bits in whole groups of eight are the bits of bytes. -/
theorem bytes_of_bits (n : Nat) (bits : List Bool) (size : bits.length = 8 * n) :
    ∃ bs : List Byte, bs.length = n ∧ bs.flatMap bitsOfByte = bits := by
  induction n generalizing bits with
  | zero => exact ⟨[], rfl, (List.length_eq_zero_iff.mp size).symm⟩
  | succ n ih =>
    match bits, size with
    | a :: b :: c :: d :: e :: f :: g :: h :: rest, size =>
      obtain ⟨bs, count, back⟩ := ih rest (by simp only [List.length_cons] at size; omega)
      exact ⟨byteOfBits [h, g, f, e, d, c, b, a] :: bs, by simp [count], by
        rw [List.flatMap_cons, bitsOfByte_byteOfBits, back]; rfl⟩

theorem flatMap_bitsOfByte_length (bs : List Byte) : (bs.flatMap bitsOfByte).length = 8 * bs.length := by
  induction bs with
  | nil => rfl
  | cons b bs ih => rw [List.flatMap_cons, List.length_append, ih, bitsOfByte_length, List.length_cons]; omega

/-- Settles O41: the burst is as many whole bytes as the frame, and a wrong bit leaves a residue in the check register, which
a frame with a good check does not. -/
theorem oneWrongBitIsFrameError : Obligations.OneWrongBitIsFrameError := by
  intro f pre post b wf bits
  obtain ⟨low, high⟩ := wf_bytes_length wf
  have size : (pre ++ (!b) :: post).length = 8 * f.bytes.length := by
    rw [← flatMap_bitsOfByte_length, bits]
    simp
  obtain ⟨bs, count, back⟩ := bytes_of_bits _ _ size
  have sent : residue (pre ++ b :: post) = 0 := bits ▸ residue_checked f.body
  have bad : (RxPath.gathered bs).hasCause .badCheck = true := by
    by_contra good
    have clean := residue_of_good (by omega) (Bool.not_eq_true _ ▸ good)
    rw [back] at clean
    exact residue_flip pre post b (sent.trans clean.symm)
  rw [← back]
  refine (decisionOn_bytes (by omega)).trans ?_
  have found : allCauses.any (RxPath.gathered bs).hasCause = true := List.any_eq_true.mpr ⟨.badCheck, by decide, bad⟩
  simp only [RxPath.decide, found]
  rfl

end Sys2Proof.Machine
end

section
/-! The line monitor, and what the end of a burst brings before any frame is distributed (O39, O42, O43, O44). -/

open Sys2Proof

namespace Sys2Proof.Machine

set_option Elab.async false

/-- Settles O39. -/
theorem lineMonitorFollowsLine : Obligations.LineMonitorFollowsLine := by
  intro s running
  refine ⟨⟨_, if_neg (by rw [running]; exact Bool.false_ne_true), ?_, ?_⟩, ?_, fun skip => ?_⟩
  · unfold State.defer
    split <;> rfl
  · by_cases waits : s.sched.state = .holdoff
    · simp only [State.defer, State.withTrunk_sched, waits, if_true]
      rfl
    · simp only [State.defer, State.withTrunk_sched, waits, if_false]
      rfl
  · exact if_neg (by rw [running]; exact Bool.false_ne_true)
  · simp only [exec, execSilentCellEndsSkip, skip, true_or, if_true, RxPath.endSkip]

/-! ### The end of a burst -/

/-- A path that follows the line decides the burst at its silent cell and waits again (Table 8.3). -/
theorem burstEnds_decides {s : State} (running : s.station.mrst = false)
    (follows : s.trunk.rx.path = .waiting ∨ s.trunk.rx.path = .hunt ∨ s.trunk.rx.path = .assemble) (cells : List BurstCell) :
    s.burstEnds cells = (s.burstOver .waiting).takeDecision (s.trunk.rx.cells cells).decide := by
  rcases follows with h | h | h <;> simp only [State.burstEnds, running, h] <;> rfl

/-- A path that takes a burst from its first cell finds the cells of a frame sent to be that frame. -/
theorem takesBurst_decides {s : State} (takes : s.takesBurst) {f : Frame} (wf : f.wf = true) :
    (s.trunk.rx.cells (lineCells f.bytes)).decide = .good f := by
  obtain ⟨-, waiting | hunting⟩ := takes
  · rw [← decisionOn_frame wf, decisionOn, lineCells]
    simp only [List.cons_append, List.map_cons, RxPath.cells_cons, RxPath.cell, waiting]
    rfl
  · rw [hunting, ← decisionOn_frame wf, decisionOn, lineCells]
    simp only [List.cons_append, List.map_cons, RxPath.cells_cons]
    rfl

/-- A whole frame of another station or of the own number, taken from its first cell, is a good frame (R154, R155). -/
theorem burstEnds_frame {s : State} (takes : s.takesBurst) {f : Frame} (wf : f.wf = true) :
    s.burstEnds (lineCells f.bytes) = (s.burstOver .waiting).goodFrame f := by
  have follows : s.trunk.rx.path = .waiting ∨ s.trunk.rx.path = .hunt ∨ s.trunk.rx.path = .assemble :=
    takes.2.imp_right fun h => .inl (by rw [h]; rfl)
  rw [burstEnds_decides takes.1 follows, takesBurst_decides takes wf]
  rfl

/-- A frame error is counted and raised, and in LISTENING restarts the listen timer (R154, R166). -/
theorem frameError_eq (s : State) : s.frameError = ((s.count .rxError).raise .rxError).withStation
    { s.station with
      listenTimer := if s.station.state = .listening then some s.setup.listenPeriod else s.station.listenTimer } := by
  have station : ((s.count .rxError).raise .rxError).station = s.station := rfl
  rw [State.frameError, station]
  by_cases listens : s.station.state = .listening
  · rw [if_pos listens, if_pos listens]
    rfl
  · rw [if_neg listens, if_neg listens]
    rfl

/-- Settles O42. -/
theorem frameErrorIsCounted : Obligations.FrameErrorIsCounted := by
  intro cells s running
  refine ⟨fun follows bad => ?_, fun c row => ⟨fun skip => ?_, fun off => ?_, fun own => ?_⟩⟩
  · refine congrArg Host.Outcome.next ((burstEnds_decides running follows cells).trans ?_)
    rw [bad]
    exact frameError_eq (s.burstOver .waiting)
  · rw [burstOf_exec row, State.burstEnds, running, RxPath.cells_of_deaf (.inr (.inr skip))]
    simp only [skip, RxPath.decide]
    rfl
  · rw [burstOf_exec row, State.burstEnds, running]
    simp only [off]
    rfl
  · rw [burstOf_exec row, State.burstEnds, running]
    simp only [own]
    rfl

/-! ### Fragments (R153) -/

/-- A path that is following a burst goes on following it or ignores the line. -/
theorem cell_follows {rx : RxPath} (h : rx.path = .hunt ∨ rx.path = .assemble) (c : BurstCell) :
    rx.cell c = rx.follow c := by
  rcases h with h | h <;> simp only [RxPath.cell, h]

theorem follow_path {rx : RxPath} (h : rx.path = .hunt ∨ rx.path = .assemble) (c : BurstCell) :
    (rx.follow c).path = .hunt ∨ (rx.follow c).path = .assemble ∨ (rx.follow c).path = .skip := by
  have goes : rx.path = .hunt ∨ rx.path = .assemble ∨ rx.path = .skip := h.imp_right .inl
  cases c with
  | violation =>
    unfold RxPath.follow
    dsimp only
    split
    · exact .inr (.inr rfl)
    · exact goes
  | data b =>
    unfold RxPath.follow
    dsimp only
    split_ifs <;> first | exact goes | exact .inr (.inl rfl)

theorem cells_live {rx : RxPath} (h : rx.path = .hunt ∨ rx.path = .assemble) (cs : List BurstCell)
    (live : (rx.cells cs).path ≠ .skip) : (rx.cells cs).path = .hunt ∨ (rx.cells cs).path = .assemble := by
  induction cs generalizing rx with
  | nil => exact h
  | cons c cs ih =>
    rw [RxPath.cells_cons, cell_follows h] at live ⊢
    rcases follow_path h c with hunt | assemble | skip
    · exact ih (.inl hunt) live
    · exact ih (.inr assemble) live
    · exact absurd (by rw [RxPath.cells_of_deaf (.inr (.inr skip)), skip]) live

/-- Violation cells that complete a run of sixteen drop the burst. -/
theorem violations_skip {rx : RxPath} (h : rx.path = .hunt ∨ rx.path = .assemble) (n : Nat) (short : rx.violations < 16)
    (run : 16 ≤ rx.violations + n) : rx.cells (List.replicate n .violation) = RxPath.at .skip := by
  induction n generalizing rx with
  | zero => omega
  | succ n ih =>
    rw [List.replicate_succ, RxPath.cells_cons, cell_follows h, RxPath.follow]
    split
    · exact RxPath.cells_of_deaf (.inr (.inr rfl)) _
    · rename_i more
      have : ¬ 16 ≤ rx.violations + 1 := more
      exact ih h (show rx.violations + 1 < 16 by omega) (show 16 ≤ rx.violations + 1 + n by omega)

theorem fragment_skips {rx : RxPath} (follows : rx.path = .waiting ∨ rx.path = .hunt ∨ rx.path = .assemble)
    (before further : List BurstCell) (short : (rx.cells before).violations < 16) (live : (rx.cells before).path ≠ .skip) :
    rx.cells (before ++ List.replicate 16 .violation ++ further) = RxPath.at .skip := by
  have run : (rx.cells before).cells (List.replicate 16 .violation) = RxPath.at .skip := by
    rcases follows with waiting | following
    · match before with
      | [] =>
        rw [RxPath.cells_nil, List.replicate_succ, RxPath.cells_cons]
        simp only [RxPath.cell, waiting]
        exact violations_skip (.inl rfl) 15 (by decide) (by decide)
      | c :: rest =>
        have first : rx.cells (c :: rest) = (RxPath.at .hunt).cells (c :: rest) := by
          simp only [RxPath.cells_cons, RxPath.cell, waiting]
          rfl
        rw [first] at short live ⊢
        exact violations_skip (cells_live (.inl rfl) _ live) 16 short (by omega)
    · exact violations_skip (cells_live following _ live) 16 short (by omega)
  rw [RxPath.cells_append, RxPath.cells_append, run, RxPath.cells_of_deaf (.inr (.inr rfl))]

/-- Settles O43. -/
theorem fragmentLeavesNoTrace : Obligations.FragmentLeavesNoTrace := by
  intro before further s running follows short live
  have some : (before ++ List.replicate 16 BurstCell.violation ++ further).isEmpty = false := by
    cases before <;> rfl
  refine ⟨?_, rfl⟩
  simp only [exec, execFragment, running, Bool.false_eq_true, if_false, fragment_skips follows before further short live, some,
    Bool.not_false, Bool.or_true]

/-- Settles O44. -/
theorem clashByStationState : Obligations.ClashByStationState := by
  intro f s wf own takes
  have ends : exec (.clash (lineCells f.bytes)) s = .next (s.burstOver .waiting).clash :=
    congrArg Host.Outcome.next ((burstEnds_frame takes wf).trans (if_pos own))
  have station : (s.burstOver .waiting).station = s.station := rfl
  refine ⟨fun at_ => ?_, fun at_ => ?_, fun at_ => ?_, fun at_ => ?_⟩ <;> rw [ends, State.clash, station, at_] <;>
    dsimp only
  · rfl
  · have quits := quitActive_quits (s := ((((s.burstOver .waiting).raise .clash).withStation
      { s.station with state := .muted, muteReason := some .clash }).raise .muted)) (isActive_of_ne (by nofun))
    have only := quitActive_only ((((s.burstOver .waiting).raise .clash).withStation
      { s.station with state := .muted, muteReason := some .clash }).raise .muted)
    refine ⟨_, rfl, quits.of_only (bs := [.trunk, .events, .station]) ?_, ?_, ?_, ?_, ?_, ?_, fun o => ?_⟩
    · intro b out
      cases b <;> first | rfl | exact absurd (by decide) out
    · exact only .station (by decide)
    · exact only .trunk (by decide)
    · exact only .events (by decide)
    · exact only .control (by decide)
    · exact only .out (by decide)
    · exact quitActive_heldOnly _ o
  · rfl
  · rfl

end Sys2Proof.Machine
end

section
/-! Selection, hold-off and the timers that run out (O52, O54, O55). -/

open Sys2Proof

namespace Sys2Proof.Machine

set_option Elab.async false

/-! ### Candidates (R125, R126) -/

theorem replayCandidate_iff (s : State) (c : Commitment) :
    s.replayCandidate = some c ↔ ∃ (d : Fin 16) (rest : List (Fin 16)) (x : Duty), s.duties.eligible = d :: rest ∧
      s.duty d = some x ∧ x.state = .eligible ∧ c = { duty := .replay d, count := x.count } := by
  unfold State.replayCandidate
  cases s.duties.eligible with
  | nil => simp
  | cons d rest =>
    cases there : s.duty d with
    | none => simp [there]
    | some x => by_cases eligible : x.state = .eligible <;> simp [there, eligible, @eq_comm _ c]

theorem gapreqCandidate_iff (s : State) (c : Commitment) :
    s.gapreqCandidate = some c ↔ ∃ (r : Request) (rest : List Request), s.pool.requests = r :: rest ∧
      (s.tracker r.tracker).marker = .pending ∧ c = { duty := .gapreq r.tracker, count := r.count } := by
  unfold State.gapreqCandidate
  cases s.pool.requests with
  | nil => simp
  | cons r rest => by_cases pending : (s.tracker r.tracker).marker = .pending <;> simp [pending, @eq_comm _ c]

theorem dataCandidate_iff (s : State) (c : Commitment) :
    s.dataCandidate = some c ↔ ∃ (h : DataDuty) (rest : List DataDuty), s.submission.queue = h :: rest ∧
      h.marker = .waiting ∧ c = { duty := .data, count := h.count } := by
  unfold State.dataCandidate
  cases s.submission.queue with
  | nil => simp
  | cons h rest => by_cases waiting : h.marker = .waiting <;> simp [waiting, @eq_comm _ c]

theorem beaconCandidate_iff (s : State) (c : Commitment) :
    s.beaconCandidate = some c ↔ s.sched.beaconDuty = true ∧ c = { duty := .beacon, count := s.sched.beaconCount } := by
  unfold State.beaconCandidate
  cases s.sched.beaconDuty <;> simp [eq_comm]

/-- A candidate is a duty of its class. -/
theorem candidate_class {s : State} {cl : FrameClass} {c : Commitment} (h : s.candidate cl = some c) :
    c.duty.frameClass = cl := by
  cases cl with
  | replay =>
    obtain ⟨_, _, _, _, _, _, rfl⟩ := (replayCandidate_iff s c).mp h
    rfl
  | gapreq =>
    obtain ⟨_, _, _, _, rfl⟩ := (gapreqCandidate_iff s c).mp h
    rfl
  | data =>
    obtain ⟨_, _, _, _, rfl⟩ := (dataCandidate_iff s c).mp h
    rfl
  | beacon =>
    obtain ⟨_, rfl⟩ := (beaconCandidate_iff s c).mp h
    rfl

/-- Class `a` ranks before class `b` (R126). -/
def ClassFlags.ranksBefore (f : ClassFlags) (a b : FrameClass) : Bool :=
  (f.has a && !f.has b) || (f.has a == f.has b && decide (a.idx < b.idx))

theorem ranksBefore_iff (f : ClassFlags) (a b : FrameClass) : f.ranksBefore a b = true ↔
    (f.has a = true ∧ f.has b = false) ∨ (f.has a = f.has b ∧ a.idx < b.idx) := by
  simp [ClassFlags.ranksBefore]

/-- Every class stands in the order of precedence, behind classes that rank before it alone. -/
theorem order_split (f : ClassFlags) (cl : FrameClass) : ∃ before rest, f.order = before ++ cl :: rest ∧
    ∀ a ∈ before, f.ranksBefore a cl = true := by
  refine ⟨f.order.takeWhile (· ≠ cl), (f.order.dropWhile (· ≠ cl)).tail, ?_⟩
  obtain ⟨replay, gapreq, data, beacon⟩ := f
  cases cl <;> revert replay gapreq data beacon <;> decide

theorem bestCandidate_of_first {s : State} {cl : FrameClass} {c : Commitment} (there : s.candidate cl = some c)
    (first : ∀ a, s.setup.classPriority.ranksBefore a cl = true → s.candidate a = none) : s.bestCandidate = some c := by
  obtain ⟨before, rest, split, ranks⟩ := order_split s.setup.classPriority cl
  rw [State.bestCandidate, split, List.findSome?_append,
    List.findSome?_eq_none_iff.mpr fun a mem => first a (ranks a mem), List.findSome?_cons, there]
  rfl

theorem selectionPoint_iff (s : State) : s.selectionPoint = true ↔
    s.trunk.lineIdle = true ∧ s.station.state = .active ∧ s.sched.state = .idle ∧ s.sched.commitment = none := by
  simp [State.selectionPoint, State.isActive, and_assoc]

/-- A hold-off that runs out in ACTIVE starts its commitment (R132). -/
theorem exec_holdoff {s : State} {c : Commitment} {cells : Nat} (waits : s.sched.state = .holdoff)
    (runs : s.sched.holdoff = some cells) (held : s.sched.commitment = some c) (active : s.station.state = .active) :
    exec .holdoffRunsOut s = .next (s.startCommitted c) := by
  have on : s.isActive = true := by simpa [State.isActive] using active
  simp only [exec, execHoldoffRunsOut, waits, runs, held, on, Option.isSome_some, and_self, if_true]

/-- Settles O54. -/
theorem selectionCommitsHighestRanked : Obligations.SelectionCommitsHighestRanked := by
  intro s
  refine ⟨fun c => ⟨replayCandidate_iff s c, gapreqCandidate_iff s c, dataCandidate_iff s c, beaconCandidate_iff s c⟩,
    fun off => ?_, fun line active idle free cl c there first => ?_⟩
  · by_cases point : s.selectionPoint = true
    · obtain ⟨line, active, idle, free⟩ := (selectionPoint_iff s).mp point
      rcases off with h | h | h | h | none
      · exact absurd (line.symm.trans h) (by decide)
      · exact absurd active h
      · exact absurd idle h
      · exact absurd free h
      · have empty : s.bestCandidate = .none := List.findSome?_eq_none_iff.mpr fun a _ => none a
        simp only [exec, execSelectionCommit, empty, ite_self]
    · exact if_neg point
  · have point := (selectionPoint_iff s).mpr ⟨line, active, idle, free⟩
    have best := bestCandidate_of_first there fun a ranks => first a ((ranksBefore_iff _ _ _).mp ranks)
    have cells : holdoffCells s.stn c = 32 * cl.idx + (s.stn.toNat + 5 * c.count) % 32 := by
      rw [holdoffCells, candidate_class there]
    have commits : exec .selectionCommit s = .next (s.commit c) := by
      simp only [exec, execSelectionCommit, point, best, if_true]
    rw [commits, State.commit, cells]
    refine ⟨fun some => ?_, fun zero => ?_⟩
    · rw [if_neg some]
    · rw [if_pos zero, zero]
      exact (exec_holdoff (s := s.withSched { s.sched with state := .holdoff, commitment := some c, holdoff := some 0 })
        rfl rfl rfl active).symm

/-! ### The start of a transmission (R132, R133) -/

/-- Settles O55: each take as it is, then the frame driven. -/
theorem holdoffStartsFrame : Obligations.HoldoffStartsFrame := by
  intro c cells s waits runs held active
  rw [exec_holdoff waits runs held active]
  refine ⟨fun d x e duty there eligible find => ?_, fun i duty pending => ?_, fun h rest e duty queue waiting find => ?_,
    fun duty beacon => ?_, fun gone => ?_⟩
  · have read : s.store.read x.key = .bytes e.payload.length e.payload := by rw [Store.read, find]
    simp only [State.startCommitted, State.takeFrame, duty, State.takeReplay, there, eligible, if_true, Option.map_some, read,
      State.drive, held]
    rfl
  · simp only [State.startCommitted, State.takeFrame, duty, State.takeRequest, pending, if_true, Option.map_some,
      State.drive, State.gapreqFrame, held]
  · have read : s.store.read (s.ownKey h.seq) = .bytes e.payload.length e.payload := by
      rw [Store.read, State.ownKey, find]
    simp only [State.startCommitted, State.takeFrame, duty, State.takeData, queue, waiting, if_true, Option.map_some, read,
      State.drive, held]
    rfl
  · simp only [State.startCommitted, State.takeFrame, duty, beacon, if_true, State.drive, State.beaconFrame, held]
  · have withdrawn : s.takeFrame c.duty = none := by
      rcases gone with ⟨d, duty, none⟩ | ⟨i, duty, none⟩
      · rw [duty, State.takeFrame, State.takeReplay]
        cases there : s.duty d with
        | none => rfl
        | some x => simp [none x there]
      · simp [duty, State.takeFrame, State.takeRequest, none]
    rw [State.startCommitted, withdrawn]
    rfl

/-! ### Replay delays that run out together (R80) -/

/-- A duty whose replay delay has run out. -/
def Duty.ripe (x : Duty) : Duty := { x with state := .eligible, timer := none }

theorem ripenAll (l : List (Fin 16 × SeqNum)) (s : State) (inUse : ∀ y ∈ l, (s.duty y.1).isSome = true) :
    l.foldl (fun s x => s.makeEligible x.1) s = s.withDuties (l.foldl (fun s x => s.makeEligible x.1) s).duties ∧
    (∀ d, (l.foldl (fun s x => s.makeEligible x.1) s).duty d =
      if d ∈ l.map (·.1) then (s.duty d).map Duty.ripe else s.duty d) ∧
    (l.foldl (fun s x => s.makeEligible x.1) s).duties.eligible = s.duties.eligible ++ l.map (·.1) := by
  induction l generalizing s with
  | nil => exact ⟨rfl, fun d => by simp, by simp⟩
  | cons y l ih =>
    have used : ∀ z ∈ l, ((s.makeEligible y.1).duty z.1).isSome = true := fun z mem => by
      rw [makeEligible_duty]
      split
      · rw [Option.isSome_map]
        exact inUse y (by simp)
      · exact inUse z (by simp [mem])
    obtain ⟨x, there⟩ := Option.isSome_iff_exists.mp (inUse y (by simp))
    have one : s.makeEligible y.1 = s.withDuties (s.makeEligible y.1).duties := by
      unfold State.makeEligible
      rw [there]
      rfl
    obtain ⟨all, duty, order⟩ := ih (s.makeEligible y.1) used
    rw [List.foldl_cons]
    refine ⟨?_, fun d => ?_, ?_⟩
    · exact all.trans (by rw [one]; rfl)
    · rw [duty, makeEligible_duty]
      by_cases eq : d = y.1
      · subst eq
        have again : ((s.duty y.1).map fun x => { x with state := .eligible, timer := .none }).map Duty.ripe =
            (s.duty y.1).map Duty.ripe := by rw [Option.map_map]; rfl
        rw [if_pos rfl, List.map_cons, if_pos (List.mem_cons_self ..), again]
        exact ite_self _
      · simp [eq]
    · rw [order, State.makeEligible, there, List.map_cons]
      simp [State.setEligible, State.setDuty]

/-- The number that comes first over those that lie forward of `y` by 32767 or less, when `y` is among them. -/
theorem firstOf_eq {y start : SeqNum} {ns : List SeqNum} (near : ∀ n ∈ start :: ns, (n - y).toNat ≤ 32767)
    (among : y ∈ start :: ns) : firstOf start ns = y := by
  induction ns generalizing start with
  | nil => exact (List.mem_singleton.mp among).symm
  | cons n ns ih =>
    have step : firstOf start (n :: ns) = firstOf (if after start n then n else start) ns := rfl
    have here := near start (by simp)
    have next := near n (by simp)
    rw [step]
    refine ih (fun m mem => ?_) ?_
    · rcases List.mem_cons.mp mem with rfl | mem
      · split <;> assumption
      · exact near m (by simp [mem])
    · rcases List.mem_cons.mp among with rfl | among
      · have stays : ¬ (after y n = true ∧ n ≠ y) := fun ⟨h, _⟩ => by
          simp only [after, Bool.and_eq_true, decide_eq_true_eq] at h
          bv_omega
        split
        · rename_i later
          by_cases eq : n = y
          · simp [eq]
          · exact absurd ⟨later, eq⟩ stays
        · simp
      · rcases List.mem_cons.mp among with rfl | among
        · split
          · simp
          · rename_i notLater
            have same : start = y := by
              simp only [after, Bool.and_eq_true, decide_eq_true_eq] at notLater
              bv_omega
            simp [same]
        · simp [among]

/-- Settled order: each number no further from `first` than those after it. -/
def Ascending (first : SeqNum) (l : List (Fin 16 × SeqNum)) : Prop :=
  l.Pairwise fun a b => offset first a.2 ≤ offset first b.2

theorem Ascending.insert {first : SeqNum} {x : Fin 16 × SeqNum} {l : List (Fin 16 × SeqNum)} (h : Ascending first l) :
    Ascending first (insertByOffset first x l) := by
  induction l with
  | nil => exact List.pairwise_singleton _ _
  | cons y l ih =>
    obtain ⟨head, tail⟩ := List.pairwise_cons.mp h
    unfold insertByOffset
    split
    · rename_i less
      refine List.pairwise_cons.mpr ⟨fun z mem => ?_, h⟩
      rcases List.mem_cons.mp mem with rfl | mem
      · exact less.le
      · exact less.le.trans (head z mem)
    · rename_i notLess
      refine List.pairwise_cons.mpr ⟨fun z mem => ?_, ih tail⟩
      rcases mem_insertByOffset.mp mem with rfl | mem
      · exact Nat.not_lt.mp notLess
      · exact head z mem

/-- The duties stand in ascending order from the first of them. -/
theorem bySerialOrder_ascending {l : List (Fin 16 × SeqNum)} {y : Fin 16 × SeqNum} (mem : y ∈ l)
    (near : ∀ x ∈ l, (x.2 - y.2).toNat ≤ 32767) : Ascending y.2 (bySerialOrder l) := by
  have fold (first : SeqNum) (l acc : List (Fin 16 × SeqNum)) (h : Ascending first acc) :
      Ascending first (l.foldl (fun acc x => insertByOffset first x acc) acc) := by
    induction l generalizing acc with
    | nil => exact h
    | cons x l ih => exact ih _ h.insert
  cases l with
  | nil => exact .nil
  | cons x l =>
    have first : firstOf x.2 (l.map (·.2)) = y.2 := by
      refine firstOf_eq (fun n at_ => ?_) ?_
      · obtain ⟨z, zmem, rfl⟩ := List.mem_map.mp (show n ∈ (x :: l).map (·.2) from at_)
        exact near z zmem
      · exact List.mem_map_of_mem (f := (·.2)) mem
    rw [bySerialOrder, first]
    exact fold _ _ _ .nil

/-- The duties of `ds` whose replay delays run out, with their numbers. -/
def State.ripening (s : State) (ds : List (Fin 16)) : List (Fin 16 × SeqNum) :=
  bySerialOrder ((allDuties.filter fun d => ds.contains d).filterMap s.delayRuns)

theorem delayRuns_iff (s : State) (d : Fin 16) (y : Fin 16 × SeqNum) : s.delayRuns d = some y ↔
    ∃ x, s.duty d = some x ∧ x.state = .delay ∧ x.timer.isSome = true ∧ y = (d, x.key.seq) := by
  unfold State.delayRuns
  cases s.duty d with
  | none => simp
  | some x =>
    by_cases h : x.state = .delay ∧ x.timer.isSome = true
    · simp [h, @eq_comm _ y]
    · refine iff_of_false (by simp [h]) fun ⟨z, eq, delay, runs, _⟩ => h ?_
      obtain rfl := Option.some.inj eq
      exact ⟨delay, runs⟩

theorem mem_ripening (s : State) (ds : List (Fin 16)) (y : Fin 16 × SeqNum) : y ∈ s.ripening ds ↔
    y.1 ∈ ds ∧ ∃ x, s.duty y.1 = some x ∧ x.state = .delay ∧ x.timer.isSome = true ∧ y.2 = x.key.seq := by
  rw [State.ripening, (bySerialOrder_perm _).mem_iff, List.mem_filterMap]
  simp only [List.mem_filter, List.contains_iff_mem, delayRuns_iff]
  constructor
  · rintro ⟨d, ⟨-, named⟩, x, there, delay, runs, rfl⟩
    exact ⟨named, x, there, delay, runs, rfl⟩
  · rintro ⟨named, x, there, delay, runs, seq⟩
    exact ⟨y.1, ⟨List.mem_finRange _, named⟩, x, there, delay, runs, Prod.ext rfl seq⟩

theorem mem_ripening_duty (s : State) (ds : List (Fin 16)) (d : Fin 16) : d ∈ (s.ripening ds).map (·.1) ↔
    d ∈ ds ∧ ∃ x, s.duty d = some x ∧ x.state = .delay ∧ x.timer.isSome = true := by
  rw [List.mem_map]
  constructor
  · rintro ⟨y, mem, rfl⟩
    obtain ⟨named, x, there, delay, runs, -⟩ := (mem_ripening s ds y).mp mem
    exact ⟨named, x, there, delay, runs⟩
  · rintro ⟨named, x, there, delay, runs⟩
    exact ⟨(d, x.key.seq), (mem_ripening s ds _).mpr ⟨named, x, there, delay, runs, rfl⟩, rfl⟩

theorem replayDelays_ripen (ds : List (Fin 16)) (s : State) : ∃ (t : State) (joined : List (Fin 16)),
    exec (.replayDelayRunsOut ds) s = .next t ∧ t = s.withDuties t.duties ∧
    (∀ d : Fin 16, t.duty d = (s.duty d).map fun x =>
      if d ∈ ds ∧ x.state = .delay ∧ x.timer.isSome = true then { x with state := .eligible, timer := none } else x) ∧
    t.duties.eligible = s.duties.eligible ++ joined ∧ joined.Nodup ∧
    (∀ d : Fin 16, d ∈ joined ↔ d ∈ ds ∧ ∃ x, s.duty d = some x ∧ x.state = .delay ∧ x.timer.isSome = true) ∧
    ∀ (f : Fin 16) (y : Duty), f ∈ joined → s.duty f = some y →
      (∀ d ∈ joined, ∀ x, s.duty d = some x → (x.key.seq - y.key.seq).toNat ≤ 32767) →
      joined.Pairwise fun a b => ∀ x z, s.duty a = some x → s.duty b = some z →
        (x.key.seq - y.key.seq).toNat ≤ (z.key.seq - y.key.seq).toNat := by
  have inUse : ∀ y ∈ s.ripening ds, (s.duty y.1).isSome = true := fun y mem => by
    obtain ⟨-, x, there, -⟩ := (mem_ripening s ds y).mp mem
    rw [there]; rfl
  obtain ⟨all, duty, order⟩ := ripenAll (s.ripening ds) s inUse
  refine ⟨(s.ripening ds).foldl (fun s x => s.makeEligible x.1) s, (s.ripening ds).map (·.1), rfl, all, fun d => ?_, order, (delaysRunning s ds).1, mem_ripening_duty s ds,
    fun f y mem there near => ?_⟩
  · refine (duty d).trans ?_
    cases there : s.duty d with
    | none => simp
    | some x =>
      have iff := mem_ripening_duty s ds d
      simp only [there, Option.some.injEq, exists_eq_left'] at iff
      by_cases ripens : d ∈ ds ∧ x.state = .delay ∧ x.timer.isSome = true
      · rw [if_pos (iff.mpr ripens), Option.map_some, Option.map_some, if_pos ripens]
        rfl
      · rw [if_neg (fun h => ripens (iff.mp h)), Option.map_some, if_neg ripens]
  · obtain ⟨named, x, there', delay, runs⟩ := (mem_ripening_duty s ds f).mp mem
    obtain rfl : x = y := Option.some.inj (there'.symm.trans there)
    have first : (f, x.key.seq) ∈ s.ripening ds := (mem_ripening s ds _).mpr ⟨named, x, there, delay, runs, rfl⟩
    have seq {z : Fin 16 × SeqNum} (zmem : z ∈ s.ripening ds) {w : Duty} (wthere : s.duty z.1 = some w) : z.2 = w.key.seq := by
      obtain ⟨-, v, vthere, -, -, eq⟩ := (mem_ripening s ds z).mp zmem
      rw [eq, Option.some.inj (vthere.symm.trans wthere)]
    have ascending := bySerialOrder_ascending ((bySerialOrder_perm _).mem_iff.mp first) fun z zmem => by
      have zin : z ∈ s.ripening ds := (bySerialOrder_perm _).mem_iff.mpr zmem
      obtain ⟨-, w, wthere, -, -, eq⟩ := (mem_ripening s ds z).mp zin
      rw [eq]
      exact near z.1 (List.mem_map_of_mem (f := (·.1)) zin) w wthere
    refine List.pairwise_map.mpr (List.Pairwise.imp_of_mem (fun amem bmem less u v uthere vthere => ?_) ascending)
    rw [← seq amem uthere, ← seq bmem vthere]
    exact less

/-- Settles O52. -/
theorem timersAndJamEnd : Obligations.TimersAndJamEnd := by
  refine ⟨replayDelays_ripen, fun s => ⟨fun runs => ?_, fun o runs => ?_, fun jamming stays => ?_, fun jamming leaving => ?_⟩⟩
  · simp only [exec, execBeaconTimerRunsOut, runs, if_true]
    cases duty : s.sched.beaconDuty <;> simp
  · simp only [exec, execSilenceTimerRunsOut, runs, if_true]
  · simp only [exec, execJamEnd, jamming, if_true, State.transmitterFree, State.withSched_station, stays, if_false]
  · simp only [exec, execJamEnd, jamming, if_true, State.transmitterFree, State.withSched_station, leaving]
    rfl

end Sys2Proof.Machine
end

section
/-! Change notices, freed trackers and the offers at the entry to ACTIVE (O34, O53). -/

open Sys2Proof

namespace Sys2Proof.Machine

set_option Elab.async false

/-! ### The run is one (R51) -/

theorem RunIs.unique {s : State} {o : Station} {first first' : SeqNum} {count count' : Nat} (h : RunIs s o first count)
    (k : RunIs s o first' count') : first = first' ∧ count = count' := by
  have same : first = first' := by
    have := h.lowest first' k.missing
    have := k.lowest first h.missing
    bv_omega
  subst same
  have stops {a b : Nat} (ha : RunIs s o first a) (hb : RunIs s o first b) : ¬ a < b := fun less => by
    obtain ⟨span, absent⟩ := hb.absent a less
    rcases ha.ends with full | last | there
    · have := hb.size
      omega
    · rw [last] at span
      exact absurd span.2 (Nat.lt_irrefl _)
    · exact absent there
  exact ⟨rfl, by have := stops h k; have := stops k h; omega⟩

theorem runOf_of_runIs {s : State} {o : Station} {first : SeqNum} {count : Nat} (bounded : (s.ctx o).Bounded)
    (run : RunIs s o first count) : s.runOf o = some (first, count) := by
  obtain ⟨-, none⟩ | ⟨f, k, eq, run'⟩ := s.runOf_cases o bounded.horizon
  · exact absurd run.missing (none first)
  · obtain ⟨rfl, rfl⟩ := run.unique run'
    exact eq

theorem runOf_none {s : State} {o : Station} (bounded : (s.ctx o).Bounded) (none : ∀ n : SeqNum, ¬ s.missing o n) :
    s.runOf o = .none := by
  obtain ⟨eq, -⟩ | ⟨f, k, -, run⟩ := s.runOf_cases o bounded.horizon
  · exact eq
  · exact absurd run.missing (none f)

/-- What the run of an origin is computed from. -/
theorem runOf_congr {s t : State} (store : t.store = s.store) (held : HeldOnly s t) (o : Station) : t.runOf o = s.runOf o := by
  rw [State.runOf, State.runOf, store, held o]
  rfl

/-! ### Claims and notices -/

theorem claim_of_run {s : State} {o : Station} {first : SeqNum} {count : Nat} (run : s.runOf o = some (first, count))
    (i : Fin 8) : s.claim i o =
      (s.setTracker i (s.claimedTracker o first count)).setCtx o { s.ctx o with trackerHeld := true } := by
  simp only [State.claim, run, State.claimedTracker, State.peerExhausted, Store.peerExhausted, State.peerClaimable, beq_iff_eq]
  rfl

theorem serving_eq {s : State} (h : TrackersSound s) {i : Fin 8} {o : Station} (serves : (s.tracker i).state ≠ .free)
    (origin : (s.tracker i).origin = o) : s.serving o = some i := by
  cases found : s.serving o with
  | none => exact absurd origin (serving_eq_none.mp found i serves)
  | some j =>
    obtain ⟨busy, same⟩ := serving_spec found
    rw [h.single j i busy serves (same.trans origin.symm)]

theorem lowestFree_eq {s : State} {i : Fin 8} (free : (s.tracker i).state = .free)
    (lowest : ∀ j : Fin 8, j < i → (s.tracker j).state ≠ .free) : s.lowestFree = some i := by
  refine List.find?_eq_some_iff_getElem.mpr ⟨by simpa using free, i.val, ?_, ?_, fun j lt => ?_⟩
  · simp [allTrackers]
  · simp [allTrackers]
  · have := lowest ⟨j, by omega⟩ (Fin.mk_lt_of_lt_val lt)
    simpa [allTrackers] using this

theorem inRange_eq (range : Option (SeqNum × Nat)) (n : SeqNum) :
    inRange range n = (range.any fun r => decide ((n - r.1).toNat < r.2)) := by
  rcases range with _ | ⟨first, count⟩ <;> rfl

/-- The notice at the tracker in service, by the run found (R52). -/
theorem changeNotice_serving {s : State} (h : TrackersSound s) {o : Station} (bounded : (s.ctx o).Bounded) {i : Fin 8}
    (serves : (s.tracker i).state ≠ .free) (origin : (s.tracker i).origin = o) :
    (∀ (first : SeqNum) (count : Nat), RunIs s o first count → s.changeNotice o = s.setTracker i
      (if first = (s.tracker i).runFirst then { s.tracker i with runCount := count }
      else if (s.tracker i).state = .wait then
        if ((s.tracker i).asked.any fun r => decide ((first - r.1).toNat < r.2)) = true then
          { s.tracker i with
            runFirst := first, runCount := count, attempts := 0, timer := .repairTimeout s.setup.repairTimeout }
        else
          { s.tracker i with
            runFirst := first, runCount := count, attempts := 0, state := .delay
            timer := .requestDelay (s.setup.reqBase + (s.stn - o).toNat) }
      else { s.tracker i with runFirst := first, runCount := count, attempts := 0 })) ∧
    ((∀ n : SeqNum, ¬ s.missing o n) → s.changeNotice o = s.freeTracker i) := by
  have notice : s.changeNotice o = s.recompute i := by rw [State.changeNotice, serving_eq h serves origin]
  refine ⟨fun first count run => ?_, fun none => ?_⟩
  · have found : s.runOf (s.tracker i).origin = some (first, count) := origin ▸ runOf_of_runIs bounded run
    rw [notice, State.recompute]
    simp only [found, inRange_eq]
    split
    · rfl
    · split
      · split
        · rfl
        · subst origin
          rfl
      · rfl
  · have found : s.runOf (s.tracker i).origin = .none := origin ▸ runOf_none bounded none
    simp only [notice, State.recompute, found]

/-- A change notice of an origin that no tracker serves (R54). -/
theorem changeNotice_unserved {s : State} (h : TrackersSound s) {o : Station} (bounded : (s.ctx o).Bounded)
    (unserved : ∀ i : Fin 8, (s.tracker i).state = .free ∨ (s.tracker i).origin ≠ o) :
    (∀ (i : Fin 8) (first : SeqNum) (count : Nat), s.station.state = .active → (s.ctx o).state = .gapped →
      (s.tracker i).state = .free → (∀ j : Fin 8, j < i → (s.tracker j).state ≠ .free) → RunIs s o first count →
      s.changeNotice o = (s.setTracker i (s.claimedTracker o first count)).setCtx o { s.ctx o with trackerHeld := true }) ∧
    ((s.station.state ≠ .active ∨ (s.ctx o).state ≠ .gapped ∨ ∀ i : Fin 8, (s.tracker i).state ≠ .free) →
      s.changeNotice o = s) := by
  have notice : s.changeNotice o = s.claimIfWaiting o := by
    rw [State.changeNotice, serving_eq_none.mpr fun i serves => (unserved i).resolve_left serves]
  refine ⟨fun i first count active gapped free lowest run => ?_, fun off => ?_⟩
  · have held : (s.ctx o).trackerHeld = false := Bool.eq_false_iff.mpr fun held => by
      obtain ⟨j, busy, origin⟩ := (h.held o).mp held
      exact (unserved j).elim busy fun other => other origin
    have waits : (s.isActive && s.waiting o) = true := by simp [State.isActive, State.waiting, active, gapped, held]
    rw [notice, State.claimIfWaiting, if_pos waits, lowestFree_eq free lowest]
    exact claim_of_run (runOf_of_runIs bounded run) i
  · rw [notice, State.claimIfWaiting]
    split
    · rename_i waits
      simp only [State.isActive, State.waiting, Bool.and_eq_true, beq_iff_eq] at waits
      obtain ⟨active, gapped, -⟩ := waits
      rcases off with h | h | h
      · exact absurd active h
      · exact absurd gapped h
      · have none : s.lowestFree = Option.none := by simpa [State.lowestFree, allTrackers] using h
        rw [none]
    · rfl

/-! ### A freed tracker (R53, R55) -/

theorem release_store (s : State) (i : Fin 8) : (s.release i).store = s.store :=
  (withdraw_only ((s.setTracker i
    { s.tracker i with state := .free, timer := .stopped, marker := .none, lastOrigin := (s.tracker i).origin }).dropRequest i)
    (.gapreq i)) .store (by decide)

theorem release_heldOnly (s : State) (i : Fin 8) : HeldOnly s (s.release i) := fun o => by
  rw [release_ctx]
  split <;> rfl

theorem claimedTracker_congr {s t : State} (store : t.store = s.store) (station : t.station = s.station) (held : HeldOnly s t)
    (o : Station) (first : SeqNum) (count : Nat) : t.claimedTracker o first count = s.claimedTracker o first count := by
  have epoch : (t.ctx o).epoch = (s.ctx o).epoch := by rw [held o]
  have cells : t.peerClaimable = s.peerClaimable := by simp only [State.peerClaimable, State.setup, store, station]
  have setup : t.setup = s.setup := by rw [State.setup, station]; rfl
  have stn : t.stn = s.stn := by rw [State.stn, station]; rfl
  unfold State.claimedTracker
  rw [cells, setup, stn, epoch]

/-- The offer of a tracker to the first origin that waits (R55). -/
theorem offer_of_first {s : State} {i : Fin 8} {o : Station} {first : SeqNum} {count : Nat} (waits : s.waiting o = true)
    (before : ∀ p : Station, (p - (s.tracker i).lastOrigin - 1).toNat < (o - (s.tracker i).lastOrigin - 1).toNat →
      s.waiting p = false) (run : s.runOf o = some (first, count)) :
    s.offer i = (s.setTracker i (s.claimedTracker o first count)).setCtx o { s.ctx o with trackerHeld := true } := by
  rw [State.offer, find_rotation waits before]
  exact claim_of_run run i

theorem offer_of_none {s : State} {i : Fin 8} (none : ∀ p, s.waiting p = false) : s.offer i = s := by
  rw [State.offer, rotation_find_none none]

theorem waiting_iff (s : State) (o : Station) :
    s.waiting o = true ↔ (s.ctx o).state = .gapped ∧ (s.ctx o).trackerHeld = false := by
  simp [State.waiting]

theorem release_waiting (s : State) (i : Fin 8) (o : Station) : (s.release i).waiting o = true ↔
    (s.ctx o).state = .gapped ∧ ((s.ctx o).trackerHeld = false ∨ o = (s.tracker i).origin) := by
  rw [waiting_iff, release_ctx]
  by_cases eq : o = (s.tracker i).origin
  · rw [if_pos eq]
    exact and_congr_right fun _ => iff_of_true rfl (.inr eq)
  · rw [if_neg eq]
    exact and_congr_right fun _ => (or_iff_left eq).symm

theorem offer_requests (s : State) (i : Fin 8) : (s.offer i).pool.requests = s.pool.requests := by
  unfold State.offer
  split
  · rename_i o _
    obtain eq | ⟨first, count, -, eq⟩ := claim_eq s i o
    · rw [eq]
    · rw [eq]
      rfl
  · rfl

/-- A GAPPED context is a synchronised one. -/
theorem Context.synced_of_gapped {c : Context} (h : c.state = .gapped) : c.isSynced = true := by
  rw [Context.isSynced, h]; rfl

theorem freeTracker_offers {s : State} {i : Fin 8} (serves : (s.tracker i).state ≠ .free) :
    s.freeTracker i = if s.station.state = .active then (s.release i).offer i else s.release i := by
  have active : (s.release i).isActive = true ↔ s.station.state = .active := by
    rw [State.isActive, release_station]
    exact beq_iff_eq
  rw [freeTracker_eq, if_neg serves]
  simp only [active]

/-- Settles O34: the notice at a tracker in service, at an origin without one, and the release with its offer. -/
theorem changeNoticeAtPool : Obligations.ChangeNoticeAtPool := by
  refine ⟨fun o s h _ bounded => ⟨fun i serves origin => changeNotice_serving h bounded serves origin,
    fun unserved => changeNotice_unserved h bounded unserved⟩, fun i s h contexts serves => ?_⟩
  have only := freeTracker_only s i
  have frees := freeTracker_offers serves
  have last : ((s.release i).tracker i).lastOrigin = (s.tracker i).origin := by rw [release_tracker, if_pos rfl]
  refine ⟨fun j other => ?_, ?_, ?_, freeTracker_heldOnly s i, only .store (by decide), only .duties (by decide),
    only .delivery (by decide), only .submission (by decide), only .trunk (by decide), only .station (by decide),
    only .events (by decide), only .counters (by decide), fun stays => ?_, fun active o first count gapped waits before run => ?_⟩
  · rw [frees]
    split
    · rw [offer_tracker_other _ _ _ other, release_tracker, if_neg other]
    · rw [release_tracker, if_neg other]
  · rw [frees]
    split
    · rw [offer_requests, release_requests]
    · rw [release_requests]
  · have sched : (s.release i).sched =
        if s.sched.state = .holdoff ∧ s.sched.commitment.map (fun c => c.duty) = some (.gapreq i) then s.sched.released
        else s.sched := by
      rw [release_sched, withdraw_sched]
    rw [frees]
    split
    · exact (offer_only _ i .sched (by decide)).trans sched
    · exact sched
  · have same : s.freeTracker i = s.release i := by
      rw [frees]
      split
      · rename_i active
        refine offer_of_none fun p => Bool.eq_false_iff.mpr fun waits => ?_
        obtain ⟨gapped, free⟩ := (release_waiting s i p).mp waits
        obtain ⟨held, other⟩ := (stays.resolve_left (absurd active)) p gapped
        rcases free with clear | own
        · exact absurd (clear.symm.trans held) (by decide)
        · exact other own
      · rfl
    rw [same, release_tracker, release_ctx, if_pos rfl, if_pos rfl]
    exact ⟨rfl, rfl⟩
  · have bounded := contexts.bounded o (Context.synced_of_gapped gapped)
    have held := release_heldOnly s i
    have claims := offer_of_first (i := i) ((release_waiting s i o).mpr ⟨gapped, waits⟩)
      (fun p less => Bool.eq_false_iff.mpr fun waits => by
        rw [last] at less
        obtain ⟨gapped, free⟩ := (release_waiting s i p).mp waits
        obtain ⟨taken, other⟩ := before p less gapped
        exact free.elim (fun clear => absurd (clear.symm.trans taken) (by decide)) other)
      ((runOf_congr (release_store s i) held o).trans (runOf_of_runIs bounded run))
    rw [claimedTracker_congr (release_store s i) (release_station s i) held] at claims
    rw [frees, if_pos active, claims]
    refine ⟨?_, ?_, fun other => ?_⟩
    · simp
    · rw [State.ctx_setCtx, if_pos rfl]
    · rw [State.ctx_setCtx, if_neg (Ne.symm other)]
      exact congrArg Context.trackerHeld ((release_ctx s i _).trans (if_pos rfl))

/-! ### The offers at the entry to ACTIVE (R56) -/

/-- `u` differs from `s` in trackers and tracker-held flags, as far as offers go. -/
structure Offering (s u : State) : Prop where
  store : u.store = s.store
  station : u.station = s.station
  held : HeldOnly s u

theorem Offering.refl (s : State) : Offering s s := ⟨rfl, rfl, .refl s⟩

theorem Offering.offer {s u : State} (h : Offering s u) (i : Fin 8) : Offering s (u.offer i) :=
  ⟨(offer_only u i .store (by decide)).trans h.store, (offer_only u i .station (by decide)).trans h.station,
    h.held.trans (offer_heldOnly u i)⟩

theorem Offering.waiting {s u : State} (h : Offering s u) (o : Station) :
    u.waiting o = true ↔ (s.ctx o).state = .gapped ∧ (u.ctx o).trackerHeld = false := by
  rw [waiting_iff, h.held o]

/-- Every GAPPED origin has a run (R25, R51). -/
theorem run_of_gapped {s : State} (contexts : ContextsSound s) (gaps : GapsDecided s) {o : Station}
    (gapped : (s.ctx o).state = .gapped) : ∃ first count, s.runOf o = some (first, count) ∧ RunIs s o first count := by
  have synced := Context.synced_of_gapped gapped
  obtain ⟨n, missing⟩ := (gaps o synced).mp gapped
  obtain ⟨-, none⟩ | found := s.runOf_cases o (contexts.bounded o synced).horizon
  · exact absurd missing (none n)
  · exact found

/-- While an origin waits, an offer claims the tracker for the first that does. -/
theorem Offering.claims {s u : State} (h : Offering s u) (contexts : ContextsSound s) (gaps : GapsDecided s) (i : Fin 8)
    {o : Station} (waits : u.waiting o = true) : ∃ p first count, u.waiting p = true ∧ RunIs s p first count ∧
      (∀ q : Station, (q - (u.tracker i).lastOrigin - 1).toNat < (p - (u.tracker i).lastOrigin - 1).toNat →
        u.waiting q = false) ∧
      u.offer i = (u.setTracker i (s.claimedTracker p first count)).setCtx p { u.ctx p with trackerHeld := true } := by
  cases found : (rotation (u.tracker i).lastOrigin).find? u.waiting with
  | none => exact absurd waits (List.find?_eq_none.mp found o (mem_rotation _ o))
  | some p =>
    obtain ⟨good, first⟩ := rotation_find found
    obtain ⟨n, count, run, is⟩ := run_of_gapped contexts gaps ((h.waiting p).mp good).1
    refine ⟨p, n, count, good, is, first, ?_⟩
    rw [State.offer, found]
    exact (claim_of_run ((runOf_congr h.store h.held p).trans run) i).trans
      (by rw [claimedTracker_congr h.store h.station h.held])

theorem offers_tracker_other (l : List (Fin 8)) (s : State) (i : Fin 8) (other : i ∉ l) :
    (l.foldl State.offer s).tracker i = s.tracker i := by
  induction l generalizing s with
  | nil => rfl
  | cons j l ih =>
    obtain ⟨ne, out⟩ : i ≠ j ∧ i ∉ l := by simpa using other
    rw [List.foldl_cons, ih _ out, offer_tracker_other s j i ne]

/-- An origin that waits gets one of the trackers offered, or none of them is left FREE. -/
theorem Offering.serves {s : State} (contexts : ContextsSound s) (gaps : GapsDecided s) (l : List (Fin 8)) (nodup : l.Nodup)
    {u : State} (h : Offering s u) {o : Station} (waits : u.waiting o = true) :
    (∃ i ∈ l, ∃ first count, RunIs s o first count ∧ (l.foldl State.offer u).tracker i = s.claimedTracker o first count) ∨
      ∀ i ∈ l, ((l.foldl State.offer u).tracker i).state ≠ .free := by
  induction l generalizing u with
  | nil => exact .inr (by simp)
  | cons i l ih =>
    obtain ⟨fresh, nodup⟩ := List.nodup_cons.mp nodup
    obtain ⟨p, first, count, good, run, -, claims⟩ := h.claims contexts gaps i waits
    have taken : ((i :: l).foldl State.offer u).tracker i = s.claimedTracker p first count := by
      rw [List.foldl_cons, offers_tracker_other l _ i fresh, claims]
      simp
    by_cases mine : p = o
    · subst mine
      exact .inl ⟨i, by simp, first, count, run, taken⟩
    · have still : (u.offer i).waiting o = true := by
        rw [claims, waiting_iff, State.ctx_setCtx, if_neg (Ne.symm mine)]
        exact (waiting_iff u o).mp waits
      rcases ih nodup (h.offer i) still with ⟨j, mem, served⟩ | none
      · exact .inl ⟨j, by simp [mem], served⟩
      · refine .inr fun j mem => ?_
        rcases List.mem_cons.mp mem with rfl | mem
        · rw [taken]
          exact (claimedTracker_consistent s p first count).2.1
        · exact none j mem

/-- Settles O53. -/
theorem listenTimerEntersActive : Obligations.ListenTimerEntersActive := by
  intro s listening runs
  have ends : exec .listenTimerRunsOut s = .next s.activated.offerAll := by
    simp only [exec, execListenTimerRunsOut, listening, runs, and_self, if_true]
    rfl
  have only := offerAll_only s.activated
  refine ⟨_, ends, only .station (by decide), only .sched (by decide), only .events (by decide), only .store (by decide),
    only .duties (by decide), only .submission (by decide), only .delivery (by decide), only .trunk (by decide),
    only .counters (by decide), only .control (by decide), only .out (by decide), only .pending (by decide),
    offerAll_heldOnly s.activated, fun trackers contexts gaps o gapped => ?_⟩
  have contexts' : ContextsSound s.activated := ⟨contexts.ownState, contexts.unsynced, contexts.bounded, contexts.due⟩
  have gaps' : GapsDecided s.activated := gaps
  have free : ∀ i, (s.tracker i).state = .free := trackers.activeOnly (by rw [listening]; nofun)
  have clear (p : Station) : (s.ctx p).trackerHeld = false := Bool.eq_false_iff.mpr fun held => by
    obtain ⟨i, busy, -⟩ := (trackers.held p).mp held
    exact busy (free i)
  have waits : s.activated.waiting o = true := (waiting_iff _ o).mpr ⟨gapped, clear o⟩
  refine ⟨?_, fun first => ?_⟩
  · rcases Offering.serves contexts' gaps' allTrackers allTrackers_nodup (.refl _) waits with ⟨i, -, n, count, run, served⟩ | none
    · exact .inl ⟨i, n, count, ⟨run.missing, run.lowest, run.size, run.absent, run.ends⟩, served⟩
    · exact .inr fun i => none i (mem_allTrackers i)
  · obtain ⟨p, n, count, good, -, before, claims⟩ := (Offering.refl s.activated).claims contexts' gaps' 0 waits
    have same : p = o := by
      have gappedP : (s.ctx p).state = .gapped := ((waiting_iff _ p).mp good).1
      have notLess : ¬ (p - (s.tracker 0).lastOrigin - 1).toNat < (o - (s.tracker 0).lastOrigin - 1).toNat :=
        fun less => first p less gappedP
      have notMore : ¬ (o - (s.tracker 0).lastOrigin - 1).toNat < (p - (s.tracker 0).lastOrigin - 1).toNat :=
        fun less => absurd waits (by rw [before o less]; exact Bool.false_ne_true)
      bv_omega
    have split : allTrackers = 0 :: allTrackers.tail := by decide
    have taken : s.activated.offerAll.tracker 0 = s.activated.claimedTracker p n count := by
      rw [State.offerAll, split, List.foldl_cons, offers_tracker_other _ _ 0 (by decide), claims]
      simp
    obtain ⟨-, serves, origin, -⟩ := claimedTracker_consistent s.activated p n count
    rw [taken]
    exact ⟨serves, origin.trans same⟩

end Sys2Proof.Machine
end

section
/-! What notices and reports do to trackers that wait and to a commitment to a request, and the traversal of a classified frame by
its notices and reports. -/

open Sys2Proof

namespace Sys2Proof.Machine

set_option Elab.async false

/-! ### Trackers that wait -/

/-- `y` waits only as `x` waited, its timeout that of `x` or fresh. -/
def Tracker.WaitsFrom (timeout : Nat) (x y : Tracker) : Prop :=
  y.state = .wait → x.state = .wait ∧ y.origin = x.origin ∧ y.epoch = x.epoch ∧ y.asked = x.asked ∧
    (y.timer = x.timer ∨ y.timer = .repairTimeout timeout)

theorem Tracker.WaitsFrom.refl (n : Nat) (x : Tracker) : x.WaitsFrom n x := fun wait => ⟨wait, rfl, rfl, rfl, .inl rfl⟩

theorem Tracker.WaitsFrom.trans {n : Nat} {x y z : Tracker} (h : x.WaitsFrom n y) (k : y.WaitsFrom n z) : x.WaitsFrom n z :=
  fun wait => by
    obtain ⟨waited, origin, epoch, asked, timer⟩ := k wait
    obtain ⟨waited', origin', epoch', asked', timer'⟩ := h waited
    refine ⟨waited', origin.trans origin', epoch.trans epoch', asked.trans asked', ?_⟩
    rcases timer with same | fresh
    · rw [same]
      exact timer'
    · exact .inr fresh

/-- No tracker of `t` waits that did not wait in `s`. -/
structure WaitKept (s t : State) : Prop where
  station : t.station = s.station
  tracker : ∀ i : Fin 8, (s.tracker i).WaitsFrom s.setup.repairTimeout (t.tracker i)

namespace WaitKept

theorem refl (s : State) : WaitKept s s := ⟨rfl, fun _ => .refl _ _⟩

theorem trans {s t u : State} (h : WaitKept s t) (k : WaitKept t u) : WaitKept s u :=
  ⟨k.station.trans h.station, fun i => (h.tracker i).trans (by
    have := k.tracker i
    rwa [State.setup, h.station] at this)⟩

theorem foldl {α : Type} {f : State → α → State} (h : ∀ s a, WaitKept s (f s a)) (l : List α) (s : State) :
    WaitKept s (l.foldl f s) := by
  induction l generalizing s with
  | nil => exact .refl s
  | cons a l ih => exact (h s a).trans (ih (f s a))

theorem of_pool {s t : State} (pool : t.pool = s.pool) (station : t.station = s.station) : WaitKept s t :=
  ⟨station, fun i => by rw [State.tracker_congr (congrArg _ pool)]; exact .refl _ _⟩

/-- One tracker changes. -/
theorem change {s t : State} (station : t.station = s.station) {i : Fin 8} {x : Tracker}
    (tracker : ∀ j, t.tracker j = if j = i then x else s.tracker j)
    (waits : (s.tracker i).WaitsFrom s.setup.repairTimeout x) : WaitKept s t :=
  ⟨station, fun j => by
    rw [tracker]
    split
    · rename_i eq
      subst eq
      exact waits
    · exact .refl _ _⟩

theorem setTracker (s : State) (i : Fin 8) (x : Tracker) (waits : (s.tracker i).WaitsFrom s.setup.repairTimeout x) :
    WaitKept s (s.setTracker i x) := change rfl (State.tracker_setTracker s i · x) waits

theorem claim (s : State) (i : Fin 8) (o : Station) : WaitKept s (s.claim i o) := by
  obtain eq | ⟨first, count, -, eq⟩ := claim_eq s i o
  · rw [eq]
    exact .refl s
  · rw [eq]
    refine change rfl (claim_tracker s i o first count _) fun wait => ?_
    unfold State.claimedTracker at wait
    dsimp only at wait
    split at wait <;> cases wait

theorem offer (s : State) (i : Fin 8) : WaitKept s (s.offer i) := by
  unfold State.offer
  split
  · exact claim s i _
  · exact .refl s

theorem release (s : State) (i : Fin 8) : WaitKept s (s.release i) :=
  change (release_station s i) (release_tracker s i) nofun

theorem freeTracker (s : State) (i : Fin 8) : WaitKept s (s.freeTracker i) := by
  rw [freeTracker_eq]
  split
  · exact .refl s
  · split
    · exact (release s i).trans (offer _ i)
    · exact release s i

theorem recompute (s : State) (i : Fin 8) : WaitKept s (s.recompute i) := by
  unfold State.recompute
  dsimp only
  split
  · exact freeTracker s i
  · split
    · exact setTracker s i _ fun wait => ⟨wait, rfl, rfl, rfl, .inl rfl⟩
    · split
      · split
        · exact setTracker s i _ fun wait => ⟨wait, rfl, rfl, rfl, .inr rfl⟩
        · exact setTracker s i _ nofun
      · exact setTracker s i _ fun wait => ⟨wait, rfl, rfl, rfl, .inl rfl⟩

theorem changeNotice (s : State) (o : Station) : WaitKept s (s.changeNotice o) := by
  unfold State.changeNotice
  split
  · exact recompute s _
  · unfold State.claimIfWaiting
    split
    · split
      · exact claim s _ o
      · exact .refl s
    · exact .refl s

theorem restartNotice (s : State) (o : Station) : WaitKept s (s.restartNotice o) := by
  unfold State.restartNotice
  split
  · exact freeTracker s _
  · exact .refl s

theorem park (s : State) (i : Fin 8) : WaitKept s (s.park i) := by
  refine change (park_only s i .station (by decide)) (park_tracker s i) fun wait => ?_
  unfold Tracker.afterExhausted at wait ⊢
  split
  · rename_i timed
    rw [if_pos timed] at wait
    cases wait
  · rename_i idle
    rw [if_neg idle] at wait
    exact absurd (.inr wait) idle

theorem resume (s : State) (i : Fin 8) : WaitKept s (s.resume i) := by
  refine change (resume_only s i .station (by decide)) (resume_tracker s i) fun wait => ?_
  unfold Tracker.afterClaimable at wait ⊢
  split
  · rename_i parked
    rw [if_pos parked] at wait
    cases wait
  · rename_i idle
    rw [if_neg idle] at wait
    exact ⟨wait, rfl, rfl, rfl, .inl rfl⟩

theorem reportFrom (s : State) (old : Nat) : WaitKept s (s.reportFrom old) := by
  unfold State.reportFrom
  split
  · exact foldl park _ _
  · split
    · exact foldl resume _ _
    · exact .refl s

theorem applyStore (s : State) (st : Store) : WaitKept s (s.applyStore st) :=
  (of_pool (s := s) (t := s.withStore st) rfl rfl).trans (reportFrom _ _)

theorem cancelKey (s : State) (k : Key) : WaitKept s (s.cancelKey k) := by
  refine foldl (fun s d => ?_) _ _
  unfold State.cancelDuty
  split
  · exact .refl s
  · split
    · exact (of_pool (emptyDuty_only s d .pool (by decide)) (emptyDuty_only s d .station (by decide))).trans (applyStore _ _)
    · exact .refl s

end WaitKept

/-! ### A commitment to a request (R131) -/

/-- No request becomes pending; a commitment in hold-off to a pending request is released exactly when the request leaves the list, and
one to a duty that is `kept` stands. -/
structure Asks (kept : DutyRef → Prop) (s t : State) : Prop where
  idle : s.sched.state ≠ .holdoff → t.sched = s.sched
  pending : ∀ i : Fin 8, (t.tracker i).marker = .pending → (s.tracker i).marker = .pending
  request : s.sched.state = .holdoff → ∀ i : Fin 8, s.sched.commitment.map (fun c => c.duty) = some (.gapreq i) →
    (s.tracker i).marker = .pending →
    ((t.tracker i).marker = .pending ∧ t.sched = s.sched) ∨ ((t.tracker i).marker ≠ .pending ∧ t.sched = s.sched.released)
  other : s.sched.state = .holdoff → ∀ r : DutyRef, kept r → s.sched.commitment.map (fun c => c.duty) = some r →
    t.sched = s.sched

/-- Duties that are no requests. -/
def notRequest (r : DutyRef) : Prop := ∀ i : Fin 8, r ≠ .gapreq i

namespace Asks

variable {kept : DutyRef → Prop}

theorem quiet {s t : State} (sched : t.sched = s.sched) (markers : ∀ i, (t.tracker i).marker = .pending ↔
    (s.tracker i).marker = .pending) : Asks kept s t :=
  ⟨fun _ => sched, fun i => (markers i).mp, fun _ i _ there => .inl ⟨(markers i).mpr there, sched⟩, fun _ _ _ _ => sched⟩

theorem refl (s : State) : Asks kept s s := quiet rfl fun _ => Iff.rfl

theorem of_pool {s t : State} (sched : t.sched = s.sched) (pool : t.pool = s.pool) : Asks kept s t :=
  quiet sched fun i => by rw [State.tracker_congr (congrArg _ pool)]

theorem trans {s t u : State} (h : Asks kept s t) (k : Asks kept t u) : Asks kept s u where
  idle free := (k.idle (by rwa [h.idle free])).trans (h.idle free)
  pending i there := h.pending i (k.pending i there)
  request holdoff i committed there := by
    rcases h.request holdoff i committed there with ⟨still, same⟩ | ⟨gone, released⟩
    · have := k.request (by rwa [same]) i (by rwa [same]) still
      rwa [same] at this
    · refine .inr ⟨fun back => gone (k.pending i back), ?_⟩
      rw [k.idle (by rw [released]; nofun), released]
  other holdoff r keep committed := by
    have same := h.other holdoff r keep committed
    exact (k.other (by rwa [same]) r keep (by rwa [same])).trans same

theorem foldl {α : Type} {f : State → α → State} (h : ∀ s a, Asks kept s (f s a)) (l : List α) (s : State) :
    Asks kept s (l.foldl f s) := by
  induction l generalizing s with
  | nil => exact .refl s
  | cons a l ih => exact (h s a).trans (ih (f s a))

theorem mono {kept' : DutyRef → Prop} {s t : State} (h : Asks kept s t) (less : ∀ r, kept' r → kept r) : Asks kept' s t :=
  ⟨h.idle, h.pending, h.request, fun holdoff r keep => h.other holdoff r (less r keep)⟩

/-- A tracker changes and keeps its request. -/
theorem change {s t : State} (sched : t.sched = s.sched) {i : Fin 8} {x : Tracker}
    (tracker : ∀ j, t.tracker j = if j = i then x else s.tracker j)
    (marker : x.marker = .pending ↔ (s.tracker i).marker = .pending) : Asks kept s t :=
  quiet sched fun j => by
    rw [tracker]
    split
    · rename_i eq
      rw [eq]
      exact marker
    · exact Iff.rfl

/-- A tracker's request leaves the list, and a commitment to it is withdrawn. -/
theorem drop {s t : State} {i : Fin 8} {x : Tracker} (off : x.marker ≠ .pending)
    (tracker : ∀ j, t.tracker j = if j = i then x else s.tracker j) (sched : t.sched = (s.withdraw (.gapreq i)).sched) :
    Asks notRequest s t where
  idle free := by rw [sched, withdraw_sched, if_neg fun h => free h.1]
  pending j there := by
    rw [tracker] at there
    split at there
    · exact absurd there off
    · exact there
  request holdoff j committed there := by
    rw [tracker, sched, withdraw_sched]
    by_cases eq : j = i
    · subst eq
      rw [if_pos rfl, if_pos ⟨holdoff, committed⟩]
      exact .inr ⟨off, rfl⟩
    · rw [if_neg eq, if_neg fun h => eq (DutyRef.gapreq.inj (Option.some.inj (committed.symm.trans h.2)))]
      exact .inl ⟨there, rfl⟩
  other holdoff r keep committed := by
    rw [sched, withdraw_sched, if_neg fun h => keep i (Option.some.inj (committed.symm.trans h.2))]

theorem claim {s : State} (h : TrackersCore s) {i : Fin 8} (free : (s.tracker i).state = .free) (o : Station) :
    Asks kept s (s.claim i o) := by
  obtain eq | ⟨first, count, -, eq⟩ := claim_eq s i o
  · rw [eq]
    exact .refl s
  · rw [eq]
    refine change rfl (claim_tracker s i o first count _) ?_
    rw [((h.consistent i).of_free free).2]
    exact iff_of_false (by rw [(claimedTracker_consistent s o first count).2.2.2]; nofun) nofun

theorem freeTracker {s : State} (h : TrackersCore s) (i : Fin 8) : Asks notRequest s (s.freeTracker i) := by
  rw [freeTracker_eq]
  split
  · exact .refl s
  · rename_i serves
    have freed : Asks notRequest s (s.release i) :=
      drop (by exact nofun) (release_tracker s i) (release_sched s i)
    split
    · refine freed.trans ?_
      unfold State.offer
      split
      · exact claim (h.release i serves) (by rw [release_tracker, if_pos rfl]) _
      · exact .refl _
    · exact freed

theorem changeNotice {s : State} (h : TrackersCore s) (o : Station) : Asks notRequest s (s.changeNotice o) := by
  unfold State.changeNotice
  split
  · rename_i i _
    unfold State.recompute
    dsimp only
    split
    · exact freeTracker h i
    · split
      · exact change rfl (State.tracker_setTracker s i · _) Iff.rfl
      · split
        · split
          · exact change rfl (State.tracker_setTracker s i · _) Iff.rfl
          · exact change rfl (State.tracker_setTracker s i · _) Iff.rfl
        · exact change rfl (State.tracker_setTracker s i · _) Iff.rfl
  · unfold State.claimIfWaiting
    split
    · split
      · rename_i i lowest
        exact claim h (lowestFree_spec lowest) o
      · exact .refl s
    · exact .refl s

theorem restartNotice {s : State} (h : TrackersCore s) (o : Station) : Asks notRequest s (s.restartNotice o) := by
  unfold State.restartNotice
  split
  · exact freeTracker h _
  · exact .refl s

theorem park (s : State) (i : Fin 8) : Asks notRequest s (s.park i) := by
  by_cases parks : (s.tracker i).parksRequest = true
  · obtain ⟨timed, pending⟩ := (parksRequest_iff _).mp parks
    refine drop (i := i) ?_ (park_tracker s i) ?_
    · rw [Tracker.afterExhausted, if_pos timed, if_pos pending]
      nofun
    · rw [park_sched, State.schedWithout, withdraw_sched]
      refine if_congr (and_congr_right fun _ => ?_) rfl rfl
      simp [parks]
  · refine change ?_ (park_tracker s i) ?_
    · rw [park_sched, State.schedWithout, if_neg]
      rintro ⟨-, j, mem, -, parks'⟩
      rw [List.mem_singleton.mp mem] at parks'
      exact parks parks'
    · unfold Tracker.afterExhausted
      split
      · rename_i timed
        have other : (s.tracker i).marker ≠ .pending := fun pending => parks ((parksRequest_iff _).mpr ⟨timed, pending⟩)
        rw [if_neg other]
      · exact Iff.rfl

theorem resume (s : State) (i : Fin 8) : Asks kept s (s.resume i) := by
  refine change (resume_only s i .sched (by decide)) (resume_tracker s i) ?_
  unfold Tracker.afterClaimable
  split <;> exact Iff.rfl

theorem reportFrom (s : State) (old : Nat) : Asks notRequest s (s.reportFrom old) := by
  unfold State.reportFrom
  split
  · exact foldl park _ _
  · split
    · exact foldl resume _ _
    · exact .refl s

theorem applyStore (s : State) (st : Store) : Asks notRequest s (s.applyStore st) :=
  (of_pool (s := s) (t := s.withStore st) rfl rfl).trans (reportFrom _ _)

end Asks

/-! ### A frame at the table, by its notices and reports -/

/-- `t` comes from `s` by change notices, restart notices and reports, and by changes outside pool and Scheduler. -/
inductive Notices : State → State → Prop
  | refl (s : State) : Notices s s
  | trans {s t u : State} : Notices s t → Notices t u → Notices s u
  | elsewhere {s t : State} (inner : Inner s t) (pool : t.pool = s.pool) (sched : t.sched = s.sched)
      (station : t.station = s.station) : Notices s t
  | change (s : State) (o : Station) : Notices s (s.changeNotice o)
  | restart (s : State) (o : Station) : Notices s (s.restartNotice o)
  | report (s : State) (old : Nat) : Notices s (s.reportFrom old)

namespace Notices

theorem of_only {bs : List Block} {s t : State} (h : Only bs s t)
    (other : ∀ b ∈ bs, b ∉ [Block.pool, .sched, .duties, .submission, .station, .trunk, .contexts] := by decide) :
    Notices s t :=
  .elsewhere (.of_only h other) (h .pool fun k => other _ k (by decide)) (h .sched fun k => other _ k (by decide))
    (h .station fun k => other _ k (by decide))

theorem setCtx (s : State) (o : Station) (c : Context) (h : c.trackerHeld = (s.ctx o).trackerHeld := by rfl) :
    Notices s (s.setCtx o c) := .elsewhere (.setCtx s o c h) rfl rfl rfl

theorem applyStore (s : State) (st : Store) : Notices s (s.applyStore st) :=
  (Notices.of_only (withStore_only s st)).trans (.report _ _)

theorem settle (s : State) (o : Station) (was : ContextState) (must : Bool) : Notices s (s.settle o was must) := by
  have decided : Notices s (s.decideState o) := by
    unfold State.decideState
    split
    · exact .setCtx _ _ _
    · exact .refl s
  unfold State.settle
  dsimp only
  split
  · exact decided.trans (.change _ _)
  · exact decided

theorem insertFrame (s : State) (o : Station) (e : Entry) : Notices s (s.insertFrame o e).after := by
  unfold State.insertFrame
  have stored := Notices.of_only (withStore_only s (s.store.insert s.stn s.setup.ownShare e).2)
  dsimp only
  split
  · exact .refl s
  · exact .refl s
  · exact stored.trans (.report _ _)
  · refine (stored.trans ?_).trans (.report _ _)
    unfold State.tellEviction
    split
    · exact settle _ _ _ _
    · exact .refl _

theorem afterDueInsert (s : State) (a : InsertAnswer) : Notices s (s.afterDueInsert a) := .of_only (afterDueInsert_only s a)

theorem beginRestart (s : State) (o : Station) (epoch : Epoch) (nextDue horizon floor : SeqNum) :
    Notices s (s.beginRestart o epoch nextDue horizon floor) :=
  ((Notices.setCtx _ _ _ (by unfold Context.countRestart; split <;> rfl)).trans (applyStore _ _)).trans (.setCtx _ _ _)

theorem endRestart (s : State) (o : Station) : Notices s (s.endRestart o) := by
  have decided : Notices s (s.decideState o) := by
    unfold State.decideState
    split
    · exact .setCtx _ _ _
    · exact .refl s
  exact (decided.trans (.restart _ _)).trans (.change _ _)

/-- A classified frame (R28 to R38). -/
theorem classify (s : State) (m : Message) : Notices s (s.classify m) := by
  have inserted (u : State) (pins : Pins) : Notices u ((u.insertFrame m.key.origin (m.entry pins)).after.afterDueInsert
      (u.insertFrame m.key.origin (m.entry pins)).answer) := (insertFrame _ _ _).trans (afterDueInsert _ _)
  unfold State.classify
  dsimp only
  split
  · exact .refl s
  · exact ((Notices.setCtx _ _ _).trans (inserted _ _)).trans (settle _ _ _ _)
  · split
    · unfold State.restartFrame
      dsimp only
      split
      · exact ((beginRestart _ _ _ _ _ _).trans (inserted _ _)).trans (endRestart _ _)
      · exact ((beginRestart _ _ _ _ _ _).trans (inserted _ _)).trans (endRestart _ _)
    · split
      · exact .of_only (count_only _ _)
      · split
        · unfold State.behindFrame
          dsimp only
          split
          · exact (insertFrame _ _ _).trans (settle _ _ _ _)
          · exact insertFrame _ _ _
        · split
          · unfold State.windowFrame
            dsimp only
            split
            · exact .refl s
            · exact ((inserted _ _).trans (.setCtx _ _ _)).trans (settle _ _ _ _)
          · unfold State.farFrame
            dsimp only
            split
            · exact .refl s
            · exact ((Notices.setCtx _ _ _).trans (inserted _ _)).trans (settle _ _ _ _)

theorem waitKept {s t : State} (h : Notices s t) : WaitKept s t := by
  induction h with
  | refl s => exact .refl s
  | trans _ _ h k => exact h.trans k
  | elsewhere _ pool _ station => exact .of_pool pool station
  | change s o => exact .changeNotice s o
  | restart s o => exact .restartNotice s o
  | report s old => exact .reportFrom s old

theorem asks {s t : State} (h : Notices s t) (core : TrackersCore s) : Asks notRequest s t ∧ TrackersCore t := by
  induction h with
  | refl s => exact ⟨.refl s, core⟩
  | trans _ _ h k =>
    obtain ⟨first, core⟩ := h core
    obtain ⟨second, core⟩ := k core
    exact ⟨first.trans second, core⟩
  | elsewhere inner pool sched => exact ⟨.of_pool sched pool, inner.core core⟩
  | change s o => exact ⟨.changeNotice core o, (changeNotice_inner s o).core core⟩
  | restart s o => exact ⟨.restartNotice core o, (restartNotice_inner s o).core core⟩
  | report s old => exact ⟨.reportFrom s old, (reportFrom_inner s old).core core⟩

end Notices

end Sys2Proof.Machine
end

section
/-! Frames heard at trackers and duties (O46, O48). -/

open Sys2Proof

namespace Sys2Proof.Machine

set_option Elab.async false

/-! ### A heard GAPREQ and a heard REPLAY, tracker by tracker (R65 to R67) -/

/-- A tracker after a heard GAPREQ (R66, R67). -/
def Tracker.afterGapreq (setup : Setup) (origin : Station) (epoch : Epoch) (first : SeqNum) (count : Nat) (tr : Tracker) :
    Tracker :=
  if tr.origin = origin ∧ tr.epoch = epoch ∧ (tr.runFirst - first).toNat < count then
    if tr.state = .delay ∧ tr.marker ≠ .onWire then
      { tr with
        state := .wait
        timer := .repairTimeout setup.repairTimeout
        marker := .none
        attempts := if setup.attemptLimit ≤ tr.attempts then tr.attempts else tr.attempts + 1
        asked := some (first, count) }
    else if tr.state = .wait then { tr with timer := .repairTimeout setup.repairTimeout, asked := some (first, count) }
    else tr
  else tr

theorem coveredBy_iff (tr : Tracker) (origin : Station) (epoch : Epoch) (first : SeqNum) (count : Nat) :
    tr.coveredBy origin epoch first count = true ↔
      tr.origin = origin ∧ tr.epoch = epoch ∧ (tr.runFirst - first).toNat < count := by
  simp only [Tracker.coveredBy, inRange, offset, Bool.and_eq_true, beq_iff_eq, and_assoc]
  exact and_congr_right fun _ => and_congr_right fun _ => decide_eq_true_iff

theorem suppressed_iff (tr : Tracker) (origin : Station) (epoch : Epoch) (first : SeqNum) (count : Nat) :
    tr.suppressed origin epoch first count = true ↔
      tr.coveredBy origin epoch first count = true ∧ tr.state = .delay ∧ tr.marker ≠ .onWire := by
  simp only [coveredBy_iff, Tracker.suppressed, decide_eq_true_eq, and_assoc]

theorem raiseAttempts_eq (s : State) (n : Nat) :
    s.raiseAttempts n = if s.setup.attemptLimit ≤ n then n else n + 1 := by
  unfold State.raiseAttempts
  split <;> omega

section Gapreq

variable (origin : Station) (epoch : Epoch) (first : SeqNum) (count : Nat)

theorem hearGapreqAt_tracker (s : State) (i j : Fin 8) : (s.hearGapreqAt origin epoch first count i).tracker j =
    if j = i then (s.tracker i).afterGapreq s.setup origin epoch first count else s.tracker j := by
  have same : (if j = i then s.tracker i else s.tracker j) = s.tracker j := by
    split
    · rename_i eq
      rw [eq]
    · rfl
  unfold State.hearGapreqAt Tracker.afterGapreq
  simp only [coveredBy_iff, raiseAttempts_eq]
  split
  · split
    · rw [tracker_withdraw, tracker_dropRequest, State.tracker_setTracker]
    · split
      · rw [State.tracker_setTracker]
      · exact same.symm
  · exact same.symm

theorem hearGapreqAt_requests (s : State) (i : Fin 8) : (s.hearGapreqAt origin epoch first count i).pool.requests =
    s.pool.requests.filter fun r => !(r.tracker == i && (s.tracker i).suppressed origin epoch first count) := by
  unfold State.hearGapreqAt
  dsimp only
  by_cases suppressed : (s.tracker i).suppressed origin epoch first count = true
  · obtain ⟨covered, delays⟩ := (suppressed_iff _ _ _ _ _).mp suppressed
    rw [if_pos covered, if_pos delays, withdraw_pool, requests_dropRequest, suppressed]
    simp only [Bool.and_true]
    rfl
  · rw [Bool.not_eq_true] at suppressed
    simp only [suppressed, Bool.and_false, Bool.not_false, List.filter_true]
    split
    · rename_i covered
      split
      · rename_i delays
        exact absurd ((suppressed_iff _ _ _ _ _).mpr ⟨covered, delays⟩) (by rw [suppressed]; exact Bool.false_ne_true)
      · split <;> rfl
    · rfl

theorem hearGapreqAt_asks (s : State) (i : Fin 8) : Asks notRequest s (s.hearGapreqAt origin epoch first count i) := by
  unfold State.hearGapreqAt
  dsimp only
  split
  · split
    · refine Asks.drop (i := i) (by exact nofun) (x := { s.tracker i with
        state := .wait, timer := .repairTimeout s.setup.repairTimeout, marker := .none
        attempts := s.raiseAttempts (s.tracker i).attempts, asked := some (first, count) }) (fun j => ?_) ?_
      · rw [tracker_withdraw, tracker_dropRequest, State.tracker_setTracker]
      · rw [withdraw_sched, withdraw_sched]
        rfl
    · split
      · exact .change rfl (State.tracker_setTracker s i · _) Iff.rfl
      · exact .refl s
  · exact .refl s

theorem hearGapreqAll {l : List (Fin 8)} (nodup : l.Nodup) (s : State) :
    (∀ j, (l.foldl (State.hearGapreqAt origin epoch first count) s).tracker j =
      if j ∈ l then (s.tracker j).afterGapreq s.setup origin epoch first count else s.tracker j) ∧
    (l.foldl (State.hearGapreqAt origin epoch first count) s).pool.requests = s.pool.requests.filter fun r =>
      !(l.contains r.tracker && (s.tracker r.tracker).suppressed origin epoch first count) := by
  induction l generalizing s with
  | nil => exact ⟨fun _ => rfl, by simp⟩
  | cons i l ih =>
    obtain ⟨out, nodup⟩ := List.nodup_cons.mp nodup
    obtain ⟨tracker, requests⟩ := ih nodup (s.hearGapreqAt origin epoch first count i)
    have setup : (s.hearGapreqAt origin epoch first count i).setup = s.setup :=
      congrArg StationControl.setup (hearGapreqAt_only origin epoch first count s i .station (by decide))
    rw [setup] at tracker
    have other {j : Fin 8} (mem : j ∈ l) : (s.hearGapreqAt origin epoch first count i).tracker j = s.tracker j := by
      rw [hearGapreqAt_tracker, if_neg (ne_of_mem_of_not_mem mem out)]
    refine ⟨fun j => ?_, ?_⟩
    · rw [List.foldl_cons, tracker]
      by_cases mem : j ∈ l
      · rw [if_pos mem, if_pos (.tail _ mem), other mem]
      · rw [if_neg mem, hearGapreqAt_tracker]
        by_cases eq : j = i <;> simp [eq, mem]
    · rw [List.foldl_cons, requests, hearGapreqAt_requests, List.filter_filter]
      refine List.filter_congr fun r _ => ?_
      by_cases eq : r.tracker = i
      · simp [eq, out]
      · by_cases mem : r.tracker ∈ l
        · simp [eq, mem, other mem]
        · simp [eq, mem]

/-- A heard GAPREQ at the pool (R66, R67). -/
theorem hearGapreq_pool (s : State) :
    (∀ i, (s.hearGapreq origin epoch first count).tracker i =
      (s.tracker i).afterGapreq s.setup origin epoch first count) ∧
    (s.hearGapreq origin epoch first count).pool.requests =
      s.pool.requests.filter fun r => !(s.tracker r.tracker).suppressed origin epoch first count := by
  obtain ⟨tracker, requests⟩ := hearGapreqAll origin epoch first count allTrackers_nodup s
  unfold State.hearGapreq
  refine ⟨fun i => ?_, ?_⟩
  · rw [tracker, if_pos (mem_allTrackers i)]
  · rw [requests]
    refine List.filter_congr fun r _ => ?_
    rw [List.contains_iff_mem.mpr (mem_allTrackers r.tracker), Bool.true_and]

theorem hearGapreq_asks (s : State) : Asks notRequest s (s.hearGapreq origin epoch first count) :=
  .foldl (hearGapreqAt_asks origin epoch first count) _ _

end Gapreq

/-- A tracker after a heard REPLAY (R65). -/
def Tracker.afterReplay (setup : Setup) (k : Key) (tr : Tracker) : Tracker :=
  if tr.state = .wait ∧ tr.origin = k.origin ∧ tr.epoch = k.epoch ∧
      (tr.asked.any fun r => decide ((k.seq - r.1).toNat < r.2)) = true then
    { tr with timer := .repairTimeout setup.repairTimeout }
  else tr

theorem hearReplayAt_tracker (k : Key) (s : State) (i j : Fin 8) : (s.hearReplayAt k i).tracker j =
    if j = i then (s.tracker i).afterReplay s.setup k else s.tracker j := by
  unfold State.hearReplayAt Tracker.afterReplay
  simp only [inRange_eq]
  split
  · rw [State.tracker_setTracker]
  · split
    · rename_i eq
      rw [eq]
    · rfl

theorem hearReplayAt_only (k : Key) (s : State) (i : Fin 8) : Only [.pool] s (s.hearReplayAt k i) := by
  unfold State.hearReplayAt
  dsimp only
  split
  · exact setTracker_only _ _ _
  · exact .refl _ _

theorem hearReplayAll (k : Key) {l : List (Fin 8)} (nodup : l.Nodup) (s : State) :
    (∀ j, (l.foldl (State.hearReplayAt k) s).tracker j =
      if j ∈ l then (s.tracker j).afterReplay s.setup k else s.tracker j) ∧
    (l.foldl (State.hearReplayAt k) s).pool.requests = s.pool.requests := by
  induction l generalizing s with
  | nil => exact ⟨fun _ => rfl, rfl⟩
  | cons i l ih =>
    obtain ⟨out, nodup⟩ := List.nodup_cons.mp nodup
    obtain ⟨tracker, requests⟩ := ih nodup (s.hearReplayAt k i)
    have setup : (s.hearReplayAt k i).setup = s.setup :=
      congrArg StationControl.setup (hearReplayAt_only k s i .station (by decide))
    rw [setup] at tracker
    refine ⟨fun j => ?_, ?_⟩
    · rw [List.foldl_cons, tracker, hearReplayAt_tracker]
      by_cases eq : j = i
      · subst eq
        simp [out]
      · simp [eq]
    · rw [List.foldl_cons, requests]
      unfold State.hearReplayAt
      dsimp only
      split <;> rfl

/-- A heard REPLAY at the pool (R65). -/
theorem hearReplay_pool (s : State) (k : Key) :
    (∀ i, (s.hearReplay k).tracker i = (s.tracker i).afterReplay s.setup k) ∧
      (s.hearReplay k).pool.requests = s.pool.requests := by
  obtain ⟨tracker, requests⟩ := hearReplayAll k allTrackers_nodup s
  unfold State.hearReplay
  exact ⟨fun i => by rw [tracker, if_pos (mem_allTrackers i)], requests⟩

theorem afterReplay_fields (setup : Setup) (k : Key) (tr : Tracker) :
    (tr.afterReplay setup k).state = tr.state ∧ (tr.afterReplay setup k).marker = tr.marker ∧
      (tr.afterReplay setup k).origin = tr.origin ∧ (tr.afterReplay setup k).epoch = tr.epoch ∧
      (tr.afterReplay setup k).asked = tr.asked := by
  unfold Tracker.afterReplay
  split <;> exact ⟨rfl, rfl, rfl, rfl, rfl⟩

theorem hearReplay_asks {kept : DutyRef → Prop} (s : State) (k : Key) : Asks kept s (s.hearReplay k) :=
  .quiet (hearReplay_only s k .sched (by decide)) fun i => by
    rw [(hearReplay_pool s k).1 i, (afterReplay_fields s.setup k (s.tracker i)).2.1]

theorem hearReplay_waitKept (s : State) (k : Key) : WaitKept s (s.hearReplay k) :=
  ⟨hearReplay_only s k .station (by decide), fun i => by
    rw [(hearReplay_pool s k).1 i]
    intro wait
    obtain ⟨state, -, origin, epoch, asked⟩ := afterReplay_fields s.setup k (s.tracker i)
    refine ⟨state.symm.trans wait, origin, epoch, asked, ?_⟩
    unfold Tracker.afterReplay
    split
    · exact .inr rfl
    · exact .inl rfl⟩

/-- Two pools are one when trackers and request list are. -/
theorem pool_ext {s t : State} (tracker : ∀ i, t.tracker i = s.tracker i) (requests : t.pool.requests = s.pool.requests) :
    t.pool = s.pool := by
  have trackers : t.pool.trackers = s.pool.trackers := Vector.ext fun i small => tracker ⟨i, small⟩
  generalize t.pool = p at trackers requests ⊢
  generalize s.pool = q at trackers requests ⊢
  cases p
  cases q
  cases trackers
  cases requests
  rfl

/-! ### Claims that only take peer cells, and claims that only give them back (R20) -/

/-- Pins that join take claimable cells of the peer share away, and nothing but the exhausted report comes of it. -/
structure Parks (s t : State) : Prop where
  station : t.station = s.station
  less : t.peerClaimable ≤ s.peerClaimable
  calm : s.peerClaimable = 0 ∨ t.peerClaimable ≠ 0 → t.pool = s.pool ∧ t.sched = s.sched
  parks : s.peerClaimable ≠ 0 → t.peerClaimable = 0 → (∀ i, t.tracker i = (s.tracker i).afterExhausted) ∧
    t.pool.requests = s.pool.requests.filter (fun r => !(s.tracker r.tracker).parksRequest) ∧
    Asks notRequest s t

theorem Parks.refl (s : State) : Parks s s :=
  ⟨rfl, le_refl _, fun _ => ⟨rfl, rfl⟩, fun some none => absurd none some⟩

theorem peerClaimable_congr {s t : State} (store : t.store = s.store) (station : t.station = s.station) :
    t.peerClaimable = s.peerClaimable := by
  simp only [State.peerClaimable, State.setup, store, station]

theorem Parks.asks {s t : State} (h : Parks s t) : Asks notRequest s t := by
  by_cases calm : s.peerClaimable = 0 ∨ t.peerClaimable ≠ 0
  · obtain ⟨pool, sched⟩ := h.calm calm
    exact .of_pool sched pool
  · obtain ⟨some, none⟩ := not_or.mp calm
    exact (h.parks some (not_not.mp none)).2.2

theorem Parks.trans {s t u : State} (h : Parks s t) (k : Parks t u) : Parks s u := by
  have asks := h.asks.trans k.asks
  refine ⟨k.station.trans h.station, k.less.trans h.less, fun calm => ?_, fun some none => ?_⟩
  · have first : s.peerClaimable = 0 ∨ t.peerClaimable ≠ 0 := by
      have := h.less
      have := k.less
      omega
    have second : t.peerClaimable = 0 ∨ u.peerClaimable ≠ 0 := by
      have := h.less
      omega
    obtain ⟨pool, sched⟩ := h.calm first
    obtain ⟨pool', sched'⟩ := k.calm second
    exact ⟨pool'.trans pool, sched'.trans sched⟩
  · by_cases here : t.peerClaimable = 0
    · obtain ⟨tracker, requests, -⟩ := h.parks some here
      obtain ⟨pool, -⟩ := k.calm (.inl here)
      exact ⟨fun i => by rw [State.tracker_congr (congrArg _ pool), tracker], by rw [pool, requests], asks⟩
    · obtain ⟨pool, -⟩ := h.calm (.inr here)
      obtain ⟨tracker, requests, -⟩ := k.parks here none
      have same (i : Fin 8) : t.tracker i = s.tracker i := State.tracker_congr (congrArg _ pool) i
      refine ⟨fun i => by rw [tracker, same], ?_, asks⟩
      rw [requests, pool]
      exact List.filter_congr fun r _ => by rw [same]

theorem Parks.of_only {bs : List Block} {s t : State} (only : Only bs s t)
    (sub : ∀ b ∈ bs, b ∉ [Block.store, .station, .pool, .sched] := by decide) : Parks s t := by
  have station : t.station = s.station := only .station fun h => sub _ h (by decide)
  have same := peerClaimable_congr (only .store fun h => sub _ h (by decide)) station
  exact ⟨station, same.le, fun _ => ⟨only .pool fun h => sub _ h (by decide), only .sched fun h => sub _ h (by decide)⟩,
    fun some none => absurd (same.symm.trans none) some⟩

/-- A claim that gives no peer cell back. -/
theorem Parks.applyStore {s : State} {st : Store} (less : (s.withStore st).peerClaimable ≤ s.peerClaimable) :
    Parks s (s.applyStore st) := by
  obtain ⟨same, exhausted, -⟩ := applyStore_cases s st
  have after : (s.applyStore st).peerClaimable = (s.withStore st).peerClaimable :=
    peerClaimable_congr (applyStore_store s st) (applyStore_only s st .station (by decide))
  refine ⟨applyStore_only s st .station (by decide), after ▸ less, fun calm => ?_, fun some none => ?_⟩
  · rw [same (by rw [after] at calm; omega)]
    exact ⟨rfl, rfl⟩
  · rw [after] at none
    obtain ⟨tracker, requests, -⟩ := exhaustedReport_parks (s.withStore st)
    have asks : Asks notRequest s (s.applyStore st) := .applyStore s st
    rw [exhausted some none] at asks ⊢
    exact ⟨tracker, requests, asks⟩

/-- A claim that gives a claimable peer cell back brings the claimable report or none. -/
structure Resumes (s t : State) : Prop where
  station : t.station = s.station
  more : s.peerClaimable ≤ t.peerClaimable
  calm : s.peerClaimable ≠ 0 ∨ t.peerClaimable = 0 → t.pool = s.pool
  resumes : s.peerClaimable = 0 → t.peerClaimable ≠ 0 →
    (∀ i, t.tracker i = (s.tracker i).afterClaimable (s.requestDelay (s.tracker i).origin)) ∧
      t.pool.requests = s.pool.requests

theorem Resumes.of_same {s t : State} (station : t.station = s.station) (store : t.store = s.store) (pool : t.pool = s.pool) :
    Resumes s t :=
  have same := peerClaimable_congr store station
  ⟨station, same.ge, fun _ => pool, fun none some => absurd (same.trans none) some⟩

theorem Resumes.trans {s t u : State} (h : Resumes s t) (k : Resumes t u) : Resumes s u := by
  refine ⟨k.station.trans h.station, h.more.trans k.more, fun calm => ?_, fun none some => ?_⟩
  · exact (k.calm (by have := h.more; omega)).trans (h.calm (by have := h.more; have := k.more; omega))
  · by_cases here : t.peerClaimable = 0
    · have pool := h.calm (.inr here)
      obtain ⟨tracker, requests⟩ := k.resumes here some
      have same (i : Fin 8) : t.tracker i = s.tracker i := State.tracker_congr (congrArg _ pool) i
      refine ⟨fun i => ?_, by rw [requests, pool]⟩
      rw [tracker, same, requestDelay_congr h.station]
    · obtain ⟨tracker, requests⟩ := h.resumes none here
      have pool := k.calm (.inl here)
      exact ⟨fun i => by rw [State.tracker_congr (congrArg _ pool), tracker], by rw [pool, requests]⟩

theorem Resumes.applyStore {s : State} {st : Store} (more : s.peerClaimable ≤ (s.withStore st).peerClaimable) :
    Resumes s (s.applyStore st) ∧ (s.applyStore st).sched = s.sched := by
  obtain ⟨same, -, claimable⟩ := applyStore_cases s st
  have after : (s.applyStore st).peerClaimable = (s.withStore st).peerClaimable :=
    peerClaimable_congr (applyStore_store s st) (applyStore_only s st .station (by decide))
  by_cases change : s.peerClaimable = 0 ∧ (s.withStore st).peerClaimable ≠ 0
  · have eq := claimable change.1 change.2
    refine ⟨⟨applyStore_only s st .station (by decide), after ▸ more, fun calm => ?_, fun _ _ => ?_⟩, ?_⟩
    · rw [after] at calm
      exact absurd calm (not_or.mpr ⟨not_not.mpr change.1, change.2⟩)
    · rw [eq]
      exact ⟨fun i => claimableReport_resumes (s.withStore st) i, claimableReport_requests (s.withStore st)⟩
    · rw [eq]
      exact claimableReport_only (s.withStore st) .sched (by decide)
  · have eq := same (by omega)
    refine ⟨⟨applyStore_only s st .station (by decide), after ▸ more, fun _ => by rw [eq]; rfl, fun none some => ?_⟩, ?_⟩
    · rw [after] at some
      exact absurd ⟨none, some⟩ change
    · rw [eq]
      rfl

/-- Entries that keep their pins or gain some leave fewer unpinned. -/
theorem unpinned_le {f : Entry → Entry} (h : ∀ e : Entry, (f e).pins.isEmpty = true → e.pins.isEmpty = true) (es : List Entry) :
    unpinned (es.map f) ≤ unpinned es := by
  unfold unpinned
  rw [List.countP_map]
  exact List.countP_mono_left fun e _ => h e

theorem le_unpinned {f : Entry → Entry} (h : ∀ e : Entry, e.pins.isEmpty = true → (f e).pins.isEmpty = true) (es : List Entry) :
    unpinned es ≤ unpinned (es.map f) := by
  unfold unpinned
  rw [List.countP_map]
  exact List.countP_mono_left fun e _ => h e

theorem pinTx_parks (s : State) (k : Key) : Parks s (s.applyStore (s.store.pinTx k).2) := by
  refine .applyStore ?_
  rcases s.store.pinTx_cases k with eq | eq | eq <;> rw [eq]
  · exact le_refl _
  · exact le_refl _
  · simp only [State.peerClaimable, State.withStore_store, State.setup, State.withStore_station, Store.peerClaimable,
      Store.peerFree, Store.mapPins, Store.mapEntries, List.length_map]
    refine Nat.add_le_add_left (unpinned_le (fun e h => ?_) _) _
    split at h
    · simp [Pins.isEmpty] at h
    · exact h

theorem clearTx_resumes (s : State) (k : Key) : Resumes s (s.clearTx k) ∧ (s.clearTx k).sched = s.sched := by
  refine Resumes.applyStore ?_
  rcases s.store.clearPin_cases k (fun p => p.tx) (fun p => { p with tx := false }) with eq | eq | eq <;>
    rw [Store.clearTx, eq]
  · exact le_refl _
  · exact le_refl _
  · simp only [State.peerClaimable, State.withStore_store, State.setup, State.withStore_station, Store.peerClaimable,
      Store.peerFree, Store.mapPins, Store.mapEntries, List.length_map]
    refine Nat.add_le_add_left (le_unpinned (fun e h => ?_) _) _
    split
    · simp only [Pins.isEmpty, Bool.and_eq_true, Bool.not_eq_true'] at h
      simp [Pins.isEmpty, h]
    · exact h

end Sys2Proof.Machine
end

section
/-! Settled here: a heard frame at duties and trackers (O46, O48). -/

open Sys2Proof

namespace Sys2Proof.Machine

set_option Elab.async false

/-! ### The duty of a heard key (R87) -/

/-- A heard DATA or REPLAY of key `k` frees duty `d`. -/
def State.cancels (s : State) (k : Key) (d : Fin 16) : Bool :=
  (s.duty d).any fun x => decide (x.key = k) && x.state != .sending

theorem cancels_iff (s : State) (k : Key) (d : Fin 16) :
    s.cancels k d = true ↔ ∃ x, s.duty d = some x ∧ x.key = k ∧ x.state ≠ .sending := by
  unfold State.cancels
  cases s.duty d <;> simp

theorem cancels_congr {s t : State} {d : Fin 16} (h : t.duty d = s.duty d) (k : Key) : t.cancels k d = s.cancels k d := by
  rw [State.cancels, h]
  rfl

theorem cancelDuty_eq (k : Key) (s : State) (d : Fin 16) :
    s.cancelDuty k d = if s.cancels k d then s.releaseDuty d k else s := by
  unfold State.cancelDuty State.cancels
  cases s.duty d with
  | none => rfl
  | some x => simp

/-- The Scheduler when a commitment to duty `d` is withdrawn. -/
theorem releaseDuty_effect (s : State) (d : Fin 16) (k : Key) :
    (∀ e, (s.releaseDuty d k).duty e = if e = d then none else s.duty e) ∧
      (s.releaseDuty d k).duties.eligible = s.duties.eligible.filter (fun x => x != d) ∧
      (s.releaseDuty d k).sched = (s.withdraw (.replay d)).sched ∧ Resumes s (s.releaseDuty d k) := by
  obtain ⟨resumes, sched⟩ := clearTx_resumes (s.emptyDuty d) k
  have duties : (s.releaseDuty d k).duties = (s.emptyDuty d).duties := clearTx_only _ k .duties (by decide)
  have only := emptyDuty_only s d
  refine ⟨fun e => ?_, ?_, ?_, ?_⟩
  · rw [State.duty_congr (congrArg _ duties), emptyDuty_duty]
  · rw [duties, State.emptyDuty, withdraw_duties]
    rfl
  · exact sched.trans (emptyDuty_sched s d)
  · exact (Resumes.of_same (only .station (by decide)) (only .store (by decide)) (only .pool (by decide))).trans resumes

/-- The Scheduler when the duties in `l` that the key cancels have been freed. -/
def State.schedCancelled (s : State) (k : Key) (l : List (Fin 16)) : Scheduler :=
  if s.sched.state = .holdoff ∧
      ∃ d ∈ l, s.sched.commitment.map (fun c => c.duty) = some (.replay d) ∧ s.cancels k d = true then s.sched.released
  else s.sched

theorem cancelDuty_effect (k : Key) (s : State) (d : Fin 16) :
    (∀ e, (s.cancelDuty k d).duty e = if e = d ∧ s.cancels k d = true then none else s.duty e) ∧
      (s.cancelDuty k d).duties.eligible = s.duties.eligible.filter (fun x => !(x == d && s.cancels k d)) ∧
      (s.cancelDuty k d).sched = s.schedCancelled k [d] ∧ Resumes s (s.cancelDuty k d) := by
  have alone : s.schedCancelled k [d] = if s.sched.state = .holdoff ∧
      s.sched.commitment.map (fun c => c.duty) = some (.replay d) ∧ s.cancels k d = true then s.sched.released
      else s.sched := by simp [State.schedCancelled]
  rw [cancelDuty_eq, alone]
  split
  · rename_i cancels
    obtain ⟨duty, eligible, sched, resumes⟩ := releaseDuty_effect s d k
    refine ⟨fun e => by simp [duty, cancels], by simp [eligible, cancels, bne], ?_, resumes⟩
    rw [sched, withdraw_sched]
    refine if_congr (and_congr_right fun _ => ?_) rfl rfl
    exact (and_iff_left cancels).symm
  · rename_i keeps
    rw [Bool.not_eq_true] at keeps
    exact ⟨fun e => by simp [keeps], by simp [keeps], by simp [keeps], .of_same rfl rfl rfl⟩

theorem cancelAll (k : Key) {l : List (Fin 16)} (nodup : l.Nodup) (s : State) :
    (∀ e, (l.foldl (State.cancelDuty k) s).duty e = if e ∈ l ∧ s.cancels k e = true then none else s.duty e) ∧
      (l.foldl (State.cancelDuty k) s).duties.eligible =
        s.duties.eligible.filter (fun x => !(l.contains x && s.cancels k x)) ∧
      (l.foldl (State.cancelDuty k) s).sched = s.schedCancelled k l ∧ Resumes s (l.foldl (State.cancelDuty k) s) := by
  induction l generalizing s with
  | nil => exact ⟨by simp, by simp, by simp [State.schedCancelled], .of_same rfl rfl rfl⟩
  | cons d l ih =>
    obtain ⟨out, nodup⟩ := List.nodup_cons.mp nodup
    obtain ⟨duty, eligible, sched, resumes⟩ := ih nodup (s.cancelDuty k d)
    obtain ⟨duty1, eligible1, sched1, resumes1⟩ := cancelDuty_effect k s d
    have other {e : Fin 16} (ne : e ≠ d) : (s.cancelDuty k d).cancels k e = s.cancels k e :=
      cancels_congr (by rw [duty1, if_neg fun h => ne h.1]) k
    have gone {e : Fin 16} (mem : e ∈ l) : e ≠ d := ne_of_mem_of_not_mem mem out
    refine ⟨fun e => ?_, ?_, ?_, resumes1.trans resumes⟩
    · rw [List.foldl_cons, duty, duty1]
      by_cases eq : e = d
      · subst eq
        simp [out]
      · simp [eq, other eq]
    · rw [List.foldl_cons, eligible, eligible1, List.filter_filter]
      refine List.filter_congr fun x _ => ?_
      by_cases eq : x = d
      · simp [eq, out]
      · simp [eq, other eq]
    · rw [List.foldl_cons, sched, State.schedCancelled, sched1, State.schedCancelled, State.schedCancelled]
      by_cases here : s.sched.state = .holdoff ∧
          ∃ e ∈ [d], s.sched.commitment.map (fun c => c.duty) = some (.replay e) ∧ s.cancels k e = true
      · rw [if_pos here, if_neg (by simp [Scheduler.released]), if_pos]
        obtain ⟨holdoff, e, mem, committed⟩ := here
        rw [List.mem_singleton.mp mem] at committed
        exact ⟨holdoff, d, by simp, committed⟩
      · rw [if_neg here]
        refine if_congr (and_congr_right fun holdoff => ?_) rfl rfl
        constructor
        · rintro ⟨e, mem, committed, cancels⟩
          exact ⟨e, .tail _ mem, committed, other (gone mem) ▸ cancels⟩
        · rintro ⟨e, mem, committed, cancels⟩
          rcases List.mem_cons.mp mem with rfl | mem
          · exact absurd ⟨holdoff, e, by simp, committed, cancels⟩ here
          · exact ⟨e, mem, committed, (other (gone mem)).symm ▸ cancels⟩

/-- A heard key at the pool: its duties, the eligible order, the Scheduler, and the pool of trackers (R87, R131). -/
theorem cancelKey_effect (s : State) (k : Key) :
    (∀ d, (s.cancelKey k).duty d = if s.cancels k d = true then none else s.duty d) ∧
      (s.cancelKey k).duties.eligible = s.duties.eligible.filter (fun d => !s.cancels k d) ∧
      (s.cancelKey k).sched = s.schedCancelled k allDuties ∧ Resumes s (s.cancelKey k) := by
  have all (d : Fin 16) : d ∈ allDuties := List.mem_finRange d
  unfold State.cancelKey
  obtain ⟨duty, eligible, sched, resumes⟩ := cancelAll k (l := allDuties) (List.nodup_finRange 16) s
  refine ⟨fun d => ?_, ?_, sched, resumes⟩
  · rw [duty]
    simp only [all, true_and]
  · rw [eligible]
    refine List.filter_congr fun d _ => ?_
    rw [List.contains_iff_mem.mpr (all d), Bool.true_and]

/-- Once a duty of the key is freed, the key's entry carries no TX. -/
theorem cancelKey_untx {s : State} {k : Key} {d : Fin 16} (cancels : s.cancels k d = true) {e : Entry}
    (found : (s.cancelKey k).store.find k = some e) : e.pins.tx = false := by
  have step (s : State) (d : Fin 16) (untx : ∀ e, s.store.find k = some e → e.pins.tx = false) :
      ∀ e, (s.cancelDuty k d).store.find k = some e → e.pins.tx = false := fun e found => by
    rw [cancelDuty_eq] at found
    split at found
    · rw [State.releaseDuty, State.clearTx, applyStore_store, find_clearTx, if_pos rfl] at found
      obtain ⟨x, -, rfl⟩ := Option.map_eq_some_iff.mp found
      rfl
    · exact untx e found
  have keeps (l : List (Fin 16)) (s : State) (untx : ∀ e, s.store.find k = some e → e.pins.tx = false) :
      ∀ e, (l.foldl (State.cancelDuty k) s).store.find k = some e → e.pins.tx = false := by
    induction l generalizing s with
    | nil => exact untx
    | cons d l ih => exact ih _ (step s d untx)
  have reach (l : List (Fin 16)) (s : State) (mem : d ∈ l) (cancels : s.cancels k d = true) :
      ∀ e, (l.foldl (State.cancelDuty k) s).store.find k = some e → e.pins.tx = false := by
    induction l generalizing s with
    | nil => cases mem
    | cons c l ih =>
      by_cases eq : d = c
      · subst eq
        refine keeps l _ fun e found => ?_
        rw [cancelDuty_eq, if_pos cancels, State.releaseDuty, State.clearTx, applyStore_store, find_clearTx, if_pos rfl] at found
        obtain ⟨x, -, rfl⟩ := Option.map_eq_some_iff.mp found
        rfl
      · refine ih _ ((List.mem_cons.mp mem).resolve_left eq) ?_
        have same : (s.cancelDuty k c).duty d = s.duty d := by
          rw [(cancelDuty_effect k s c).1, if_neg fun h => eq h.1]
        exact (cancels_congr same k).trans cancels
  exact reach allDuties s (List.mem_finRange d) cancels e found

/-- Markers after a claimable report are those before it. -/
theorem Resumes.marker {s t : State} (h : Resumes s t) (i : Fin 8) : (t.tracker i).marker = (s.tracker i).marker := by
  by_cases calm : s.peerClaimable ≠ 0 ∨ t.peerClaimable = 0
  · rw [State.tracker_congr (congrArg _ (h.calm calm))]
  · obtain ⟨none, some⟩ := not_or.mp calm
    rw [(h.resumes (not_not.mp none) some).1 i, Tracker.afterClaimable]
    split <;> rfl

theorem cancelKey_asks (s : State) (k : Key) :
    Asks (fun r => ∀ d : Fin 16, r = .replay d → s.cancels k d = false) s (s.cancelKey k) := by
  obtain ⟨-, -, sched, resumes⟩ := cancelKey_effect s k
  refine ⟨fun idle => ?_, fun i there => ?_, fun _ i committed there => .inl ⟨?_, ?_⟩, fun _ r keep committed => ?_⟩
  · rw [sched, State.schedCancelled, if_neg fun h => idle h.1]
  · rwa [resumes.marker] at there
  · rwa [resumes.marker]
  · rw [sched, State.schedCancelled, if_neg]
    rintro ⟨-, d, -, replay, -⟩
    cases Option.some.inj (committed.symm.trans replay)
  · rw [sched, State.schedCancelled, if_neg]
    rintro ⟨-, d, -, replay, cancels⟩
    rw [keep d (Option.some.inj (committed.symm.trans replay))] at cancels
    cases cancels

/-! ### A heard DATA or REPLAY up to the duties (R156) -/

/-- A good frame of another station taken from its first cell is counted, its sender is heard, and it is distributed (R45,
R156). -/
def State.received (s : State) (sender : Station) : State := ((s.burstOver .waiting).count .rxGood).heard sender

theorem received_only (s : State) (sender : Station) : Only [.trunk, .counters, .contexts] s (s.received sender) :=
  ((withTrunk_only s _).then (count_only _ _)).then (heard_only _ _)

theorem burstEnds_peer {s : State} (takes : s.takesBurst) {f : Frame} (wf : f.wf = true) (peer : f.sender ≠ s.stn) :
    s.burstEnds (lineCells f.bytes) = (s.received f.sender).distribute f :=
  (burstEnds_frame takes wf).trans (if_neg peer)

theorem received_ctx (s : State) (sender o : Station) : (s.received sender).ctx o =
    if o = sender then
      { s.ctx sender with
        heardSinceReset := true, silent := false, silenceTimer := some (4 * s.setup.beaconInterval) }
    else s.ctx o := State.ctx_setCtx _ _ _ _

/-- A sender heard leaves every context where it is. -/
theorem received_place (s : State) (sender o : Station) :
    ((s.received sender).ctx o).place = (s.ctx o).place ∧ ((s.received sender).ctx o).state = (s.ctx o).state ∧
      ((s.received sender).ctx o).trackerHeld = (s.ctx o).trackerHeld := by
  rw [received_ctx]
  split
  · rename_i eq
    rw [eq]
    exact ⟨rfl, rfl, rfl⟩
  · exact ⟨rfl, rfl, rfl⟩

theorem received_core {s : State} (h : TrackersCore s) (sender : Station) : TrackersCore (s.received sender) :=
  h.congr (received_only s sender .pool (by decide)) fun o => (received_place s sender o).2.2

/-- A heard DATA or REPLAY after the table and the trackers, before the duties. -/
def State.beforeCancel (s : State) (c : Instr) (k : Key) (payload : List Byte) : State :=
  match c with
  | .rxReplay _ => (if k.origin = s.stn then s else s.classify { key := k, payload := payload }).hearReplay k
  | _ => s.classify { key := k, payload := payload }

theorem wf_payload {payload : List Byte} (some : 1 ≤ payload.length) (few : payload.length ≤ 120) :
    (decide (1 ≤ payload.length) && decide (payload.length ≤ Config.maxPayload)) = true := by
  simp [some, Config.maxPayload, few]

/-- RX_DATA and RX_REPLAY of another station end with the cancelling of the key's duty. -/
theorem exec_heardMessage {c : Instr} {sender : Station} {k : Key} {payload : List Byte} {s : State}
    (row : (c = .rxData (lineCells (Frame.data k.origin k.epoch k.seq payload).bytes) ∧ sender = k.origin) ∨
      c = .rxReplay (lineCells (Frame.replay k.origin k.epoch k.seq sender payload).bytes))
    (some : 1 ≤ payload.length) (few : payload.length ≤ 120) (peer : sender ≠ s.stn) (takes : s.takesBurst) :
    exec c s = .next (((s.received sender).beforeCancel c k payload).cancelKey k) := by
  rcases row with ⟨rfl, rfl⟩ | rfl
  · exact congrArg Host.Outcome.next
      (burstEnds_peer takes (f := .data k.origin k.epoch k.seq payload) (wf_payload some few) peer)
  · exact congrArg Host.Outcome.next
      (burstEnds_peer takes (f := .replay k.origin k.epoch k.seq sender payload) (wf_payload some few) peer)

theorem beforeCancel_only (s : State) (c : Instr) (k : Key) (payload : List Byte) :
    Only [.store, .pool, .contexts, .sched, .counters, .events] s (s.beforeCancel c k payload) := by
  unfold State.beforeCancel
  split
  · split
    · exact (hearReplay_only _ _).mono
    · exact ((classify_only _ _).then (hearReplay_only _ _)).mono
  · exact classify_only _ _

theorem beforeCancel_asks {s : State} (h : TrackersCore s) (c : Instr) (k : Key) (payload : List Byte) :
    Asks notRequest s (s.beforeCancel c k payload) := by
  unfold State.beforeCancel
  split
  · split
    · exact hearReplay_asks _ _
    · exact ((Notices.classify _ _).asks h).1.trans (hearReplay_asks _ _)
  · exact ((Notices.classify _ _).asks h).1

/-- Settles O46: up to the duties a commitment is lost only with its request, and then only with the key's own duty. -/
theorem heardFrameCancelsDuty : Obligations.HeardFrameCancelsDuty := by
  intro c sender k payload s row some few peer takes trackers
  refine ⟨_, exec_heardMessage row some few peer takes, ?_⟩
  have received := received_only s sender
  have before := beforeCancel_only (s.received sender) c k payload
  have pool : (s.received sender).pool = s.pool := received .pool (by decide)
  have asks : Asks notRequest s ((s.received sender).beforeCancel c k payload) :=
    (Asks.of_pool (received .sched (by decide)) pool).trans (beforeCancel_asks (received_core trackers.core sender) c k payload)
  have untouched : ((s.received sender).beforeCancel c k payload).duties = s.duties :=
    (before .duties (by decide)).trans (received .duties (by decide))
  generalize hw : (s.received sender).beforeCancel c k payload = w at before asks untouched ⊢
  have dutyEq (d : Fin 16) : w.duty d = s.duty d := State.duty_congr (congrArg _ untouched) d
  have cancelsEq (d : Fin 16) : w.cancels k d = s.cancels k d := cancels_congr (dutyEq d) k
  obtain ⟨duty, eligible, sched, resumes⟩ := cancelKey_effect w k
  have last := cancelKey_asks w k
  have standing : Asks (fun r => notRequest r ∧ ∀ d : Fin 16, r = .replay d → s.cancels k d = false) s (w.cancelKey k) :=
    (asks.mono fun r h => h.1).trans (last.mono fun r h d eq => (cancelsEq d).trans (h.2 d eq))
  refine ⟨fun d => ?_, ?_, fun ⟨d, x, there, key, quiet⟩ e found => ?_, standing.idle, fun h holdoff held =>
    ⟨fun d replay => ⟨fun cancelled => ?_, fun kept => ?_⟩, fun i request pending => ⟨fun still => ?_, fun gone => ?_⟩, fun plain => ?_⟩,
    fun own => ?_⟩
  · rw [duty, cancelsEq, dutyEq, State.cancels]
    cases s.duty d with
    | none => rfl
    | some x => by_cases h : x.key = k ∧ x.state ≠ .sending <;> simp [h]
  · rw [eligible, untouched]
    refine List.filter_congr fun d _ => ?_
    rw [cancelsEq, State.cancels]
    cases s.duty d <;> rfl
  · exact cancelKey_untx (((cancelsEq d).trans ((cancels_iff s k d).mpr ⟨x, there, key, quiet⟩))) found
  · have same : w.sched = s.sched := asks.other holdoff (.replay d) (fun i => nofun) (by rw [held, Option.map_some, replay])
    rw [sched, State.schedCancelled, same, if_pos]
    exact ⟨holdoff, d, List.mem_finRange d, by rw [held, Option.map_some, replay],
      (cancelsEq d).trans ((cancels_iff s k d).mpr cancelled)⟩
  · refine standing.other holdoff (.replay d) ⟨fun i => nofun, fun e eq => ?_⟩ (by rw [held, Option.map_some, replay])
    rw [← DutyRef.replay.inj eq, Bool.eq_false_iff]
    intro cancels
    obtain ⟨x, there, key, quiet⟩ := (cancels_iff s k d).mp cancels
    exact (kept x there).elim (fun other => other key) quiet
  · rcases standing.request holdoff i (by rw [held, Option.map_some, request]) pending with ⟨-, same⟩ | ⟨gone, -⟩
    · exact same
    · exact absurd still gone
  · rcases standing.request holdoff i (by rw [held, Option.map_some, request]) pending with ⟨still, -⟩ | ⟨-, released⟩
    · exact absurd still gone
    · exact released
  · refine standing.other holdoff h.duty ⟨fun i => ?_, fun d eq => ?_⟩ (by rw [held, Option.map_some])
    · rcases plain with eq | eq <;> rw [eq] <;> nofun
    · rcases plain with eq' | eq' <;> rw [eq'] at eq <;> cases eq
  · have only : Only [.pool] (s.received sender) w := by
      rcases row with ⟨rfl, rfl⟩ | rfl
      · exact absurd own peer
      · have eq : w = (s.received sender).hearReplay k := by
          rw [← hw, State.beforeCancel, if_pos]
          exact own
        rw [eq]
        exact hearReplay_only _ _
    have store : w.store = s.store := (only .store (by decide)).trans (received .store (by decide))
    have pins := (Claims.cancelKey w k).pinsOnly
    rw [store] at pins
    refine ⟨fun o => ?_, pins.own, pins.peer⟩
    have ctx : (w.cancelKey k).ctx o = (s.received sender).ctx o :=
      State.ctx_congr ((cancelKey_only w k .contexts (by decide)).trans (only .contexts (by decide))) o
    rw [ctx]
    exact ⟨(received_place s sender o).1, (received_place s sender o).2.1⟩

/-! ### RX_GAPREQ and RX_REPLAY at the trackers -/

theorem examineKey_parks (requester : Station) (s : State) (k : Key) : Parks s (s.examineKey requester k) := by
  unfold State.examineKey
  split
  · have pins := pinTx_parks s k
    dsimp only
    split
    · exact pins.trans (.of_only (makeDuty_only _ _ _ _))
    · exact .refl s
    · exact .refl s
  · split
    · exact .of_only (count_only _ _)
    · exact .refl s

theorem answerGapreq_parks (s : State) (requester origin : Station) (epoch : Epoch) (first : SeqNum) (count : Nat) :
    Parks s (s.answerGapreq requester origin epoch first count) := by
  have examine (l : List Key) (s : State) : Parks s (l.foldl (fun s k => s.examineKey requester k) s) := by
    induction l generalizing s with
    | nil => exact .refl s
    | cons k l ih => exact (examineKey_parks requester s k).trans (ih _)
  unfold State.answerGapreq
  split
  · exact examine _ s
  · exact .refl s

theorem wf_count {count : Nat} (some : 1 ≤ count) (few : count ≤ 8) :
    (decide (1 ≤ count) && decide (count ≤ Config.maxRun)) = true := by
  simp [some, Config.maxRun, few]

theorem received_tracker (s : State) (sender : Station) (i : Fin 8) : (s.received sender).tracker i = s.tracker i := rfl

theorem received_hearGapreq (s : State) (sender origin : Station) (epoch : Epoch) (first : SeqNum) (count : Nat) :
    ((s.received sender).hearGapreq origin epoch first count).pool = (s.hearGapreq origin epoch first count).pool := by
  obtain ⟨tracker, requests⟩ := hearGapreq_pool origin epoch first count s
  obtain ⟨tracker', requests'⟩ := hearGapreq_pool origin epoch first count (s.received sender)
  exact pool_ext (fun i => (tracker' i).trans (tracker i).symm) (requests'.trans requests.symm)

/-- A request that the exhausted report leaves on the list. -/
theorem parksRequest_eq (x : Tracker) :
    (!x.parksRequest) = (x.afterExhausted.state != .parked || x.state == .parked || x.marker != .pending) := by
  obtain ⟨state, _, _, _, _, _, _, marker, _, _⟩ := x
  cases state <;> cases marker <;> rfl

/-- RX_GAPREQ at the trackers: heard, then parked if its duties take the last claimable peer cell (R66 to R68). -/
theorem gapreqAtTrackers (requester origin : Station) (epoch : Epoch) (first : SeqNum) (count : Nat) (s : State)
    (peer : requester ≠ s.stn) (some : 1 ≤ count) (few : count ≤ 8) (takes : s.takesBurst) :
    ∃ t : State, exec (.rxGapreq (lineCells (Frame.gapreq requester origin epoch first count).bytes)) s = .next t ∧
      ((s.peerClaimable = 0 ∨ t.peerClaimable ≠ 0) → t.pool = (s.hearGapreq origin epoch first count).pool) ∧
      (s.peerClaimable ≠ 0 → t.peerClaimable = 0 →
        (∀ i : Fin 8, t.tracker i = ((s.hearGapreq origin epoch first count).tracker i).afterExhausted) ∧
        t.pool.requests = (s.hearGapreq origin epoch first count).pool.requests.filter (fun r =>
          (t.tracker r.tracker).state != .parked ||
            ((s.hearGapreq origin epoch first count).tracker r.tracker).state == .parked ||
            ((s.hearGapreq origin epoch first count).tracker r.tracker).marker != .pending)) ∧
      Asks notRequest s t := by
  have ends := burstEnds_peer takes (f := .gapreq requester origin epoch first count) (wf_count some few) peer
  refine ⟨_, congrArg Host.Outcome.next ends, ?_⟩
  have received := received_only s requester
  have pool := received_hearGapreq s requester origin epoch first count
  have asks : Asks notRequest s ((s.received requester).hearGapreq origin epoch first count) :=
    (Asks.of_pool (received .sched (by decide)) (received .pool (by decide))).trans (hearGapreq_asks origin epoch first count _)
  have only := hearGapreq_only (s.received requester) origin epoch first count
  have cells : ((s.received requester).hearGapreq origin epoch first count).peerClaimable = s.peerClaimable :=
    peerClaimable_congr (s := s) (only .store (by decide)) (only .station (by decide))
  have distributed : (s.received requester).distribute (.gapreq requester origin epoch first count) =
      ((s.received requester).hearGapreq origin epoch first count).answerGapreq requester origin epoch first count := rfl
  rw [show (Frame.gapreq requester origin epoch first count).sender = requester from rfl, distributed]
  generalize (s.received requester).hearGapreq origin epoch first count = v at pool asks cells ⊢
  have parks := answerGapreq_parks v requester origin epoch first count
  have tracker (i : Fin 8) : v.tracker i = (s.hearGapreq origin epoch first count).tracker i :=
    State.tracker_congr (congrArg _ pool) i
  rw [← cells, ← pool]
  refine ⟨fun calm => (parks.calm calm).1, fun some none => ?_, asks.trans parks.asks⟩
  obtain ⟨parked, requests, -⟩ := parks.parks some none
  refine ⟨fun i => by rw [parked, tracker], ?_⟩
  rw [requests]
  exact List.filter_congr fun r _ => by rw [parksRequest_eq, parked, tracker]

/-- The cases of Table 2.4 for a synchronised context (R28). -/
theorem classify_synced {s : State} {m : Message} (synced : (s.ctx m.key.origin).isSynced = true) : s.classify m =
    if newer m.key.epoch (s.ctx m.key.origin).epoch then s.restartFrame m
    else if m.key.epoch ≠ (s.ctx m.key.origin).epoch then s.count .rxStale
    else if 32768 ≤ offset (s.ctx m.key.origin).nextDue m.key.seq then s.behindFrame m
    else if offset (s.ctx m.key.origin).nextDue m.key.seq ≤
        offset (s.ctx m.key.origin).nextDue (s.ctx m.key.origin).base + 63 then s.windowFrame m
    else s.farFrame m := by
  have peerState : (s.ctx m.key.origin).state = .steady ∨ (s.ctx m.key.origin).state = .gapped := by
    simpa [Context.isSynced] using synced
  rcases peerState with h | h <;> simp only [State.classify, h]

/-- A frame that the table has no use for: of an older epoch, or of a key that is present. -/
theorem classify_useless {s : State} {m : Message} (synced : (s.ctx m.key.origin).isSynced = true)
    (useless : (m.key.epoch = (s.ctx m.key.origin).epoch ∧ ∃ x ∈ s.store.own ++ s.store.peer, x.key = m.key) ∨
      (m.key.epoch ≠ (s.ctx m.key.origin).epoch ∧ newer m.key.epoch (s.ctx m.key.origin).epoch = false)) :
    s.classify m = s ∨ s.classify m = s.count .rxStale := by
  rw [classify_synced synced]
  rcases useless with ⟨same, held⟩ | ⟨other, older⟩
  · have notNewer : newer m.key.epoch (s.ctx m.key.origin).epoch = false := by simp [same, newer]
    obtain ⟨x, found⟩ : ∃ x, s.store.find m.key = some x := by
      cases found : s.store.find m.key with
      | some x => exact ⟨x, rfl⟩
      | none =>
        obtain ⟨x, mem, key⟩ := held
        exact absurd key (Store.find_eq_none.mp found x mem)
    have present : s.store.present m.key = true := Store.present_iff.mpr held
    have inserted (pins : Pins) : s.insertFrame m.key.origin (m.entry pins) =
        { answer := .present x.pins, ownEviction := false, after := s } := by
      simp only [State.insertFrame, insert_present (e := m.entry pins) found]
    refine .inl ?_
    have behind : s.behindFrame m = s := by simp [State.behindFrame, inserted]
    have window : s.windowFrame m = s := by simp [State.windowFrame, inserted, InsertAnswer.isPresent]
    have far : s.farFrame m = s := by simp [State.farFrame, present]
    rw [notNewer, if_neg Bool.false_ne_true, if_neg (not_not.mpr same), behind, window, far]
    simp only [ite_self]
  · refine .inr ?_
    rw [older, if_neg Bool.false_ne_true, if_pos other]

/-- RX_REPLAY at the trackers (R65, R69). -/
theorem replayAtTrackers (k : Key) (replayer : Station) (payload : List Byte) (s : State) (some : 1 ≤ payload.length)
    (few : payload.length ≤ 120) (peer : replayer ≠ s.stn) (takes : s.takesBurst) :
    ∃ t : State, exec (.rxReplay (lineCells (Frame.replay k.origin k.epoch k.seq replayer payload).bytes)) s = .next t ∧
      ((k.origin = s.stn ∨ ((s.ctx k.origin).isSynced = true ∧
          ((k.epoch = (s.ctx k.origin).epoch ∧ ∃ x ∈ s.store.own ++ s.store.peer, x.key = k) ∨
            (k.epoch ≠ (s.ctx k.origin).epoch ∧ newer k.epoch (s.ctx k.origin).epoch = false)))) →
        ((s.peerClaimable ≠ 0 ∨ t.peerClaimable = 0) → t.pool = (s.hearReplay k).pool) ∧
        (s.peerClaimable = 0 → t.peerClaimable ≠ 0 →
          (∀ i : Fin 8, t.tracker i = ((s.hearReplay k).tracker i).afterClaimable
            (s.setup.reqBase + (s.stn - (s.tracker i).origin).toNat)) ∧
          t.pool.requests = s.pool.requests)) ∧
      ∀ i : Fin 8, (t.tracker i).state = .wait → (s.tracker i).state = .wait ∧
        (t.tracker i).origin = (s.tracker i).origin ∧ (t.tracker i).epoch = (s.tracker i).epoch ∧
        (t.tracker i).asked = (s.tracker i).asked ∧
        ((t.tracker i).timer = (s.tracker i).timer ∨ (t.tracker i).timer = .repairTimeout s.setup.repairTimeout) ∧
        ((s.tracker i).origin = k.origin → (s.tracker i).epoch = k.epoch →
          ((s.tracker i).asked.any fun r => decide ((k.seq - r.1).toNat < r.2)) = true →
          (t.tracker i).timer = .repairTimeout s.setup.repairTimeout) := by
  refine ⟨_, exec_heardMessage (.inr rfl) some few peer takes, fun useless => ?_, fun i waits => ?_⟩
  · have received := received_only s replayer
    have eq : ∃ v : State, (s.received replayer).beforeCancel
        (.rxReplay (lineCells (Frame.replay k.origin k.epoch k.seq replayer payload).bytes)) k payload = v.hearReplay k ∧
        v.store = s.store ∧ v.station = s.station ∧ v.pool = s.pool := by
      have stands : (s.received replayer).store = s.store ∧ (s.received replayer).station = s.station ∧
          (s.received replayer).pool = s.pool := ⟨rfl, rfl, rfl⟩
      rw [State.beforeCancel]
      split
      · exact ⟨_, rfl, stands⟩
      · rename_i other
        obtain ⟨synced, useless⟩ := useless.resolve_left other
        have place := received_place s replayer k.origin
        have synced' : ((s.received replayer).ctx k.origin).isSynced = true := by
          rw [Context.isSynced, place.2.1]
          exact synced
        have epoch : ((s.received replayer).ctx k.origin).epoch = (s.ctx k.origin).epoch := congrArg Prod.fst place.1
        rcases classify_useless (s := s.received replayer) (m := { key := k, payload := payload }) synced'
          (by rw [epoch]; exact useless) with eq | eq
        · exact ⟨_, rfl, by rw [eq]; exact stands⟩
        · exact ⟨_, rfl, by rw [eq]; exact stands⟩
    obtain ⟨v, eq, store, station, pool⟩ := eq
    rw [eq]
    have only := hearReplay_only v k
    have cells : (v.hearReplay k).peerClaimable = s.peerClaimable :=
      peerClaimable_congr ((only .store (by decide)).trans store) ((only .station (by decide)).trans station)
    obtain ⟨tracker, requests⟩ := hearReplay_pool v k
    obtain ⟨tracker', requests'⟩ := hearReplay_pool s k
    have setup : v.setup = s.setup := by rw [State.setup, station]; rfl
    have same (i : Fin 8) : v.tracker i = s.tracker i := State.tracker_congr (congrArg _ pool) i
    have pools : (v.hearReplay k).pool = (s.hearReplay k).pool := by
      refine pool_ext (fun i => ?_) ?_
      · rw [tracker, tracker', setup, same]
      · rw [requests, requests', pool]
    obtain ⟨-, -, -, resumes⟩ := cancelKey_effect (v.hearReplay k) k
    rw [← cells, ← pools]
    refine ⟨fun calm => resumes.calm calm, fun none some => ?_⟩
    obtain ⟨resumed, list⟩ := resumes.resumes none some
    refine ⟨fun i => ?_, ?_⟩
    · have delay : (v.hearReplay k).requestDelay ((v.hearReplay k).tracker i).origin =
          s.setup.reqBase + (s.stn - (s.tracker i).origin).toNat := by
        rw [requestDelay_congr ((only .station (by decide)).trans station), tracker,
          (afterReplay_fields v.setup k (v.tracker i)).2.2.1, same]
        rfl
      have here : (s.hearReplay k).tracker i = (v.hearReplay k).tracker i := State.tracker_congr (congrArg _ pools.symm) i
      rw [resumed, delay, here]
    · rw [list, requests, pool]
  · have received : WaitKept s (s.received replayer) := .of_pool rfl rfl
    have eq : ∃ v : State, (s.received replayer).beforeCancel
        (.rxReplay (lineCells (Frame.replay k.origin k.epoch k.seq replayer payload).bytes)) k payload = v.hearReplay k ∧
        WaitKept s v := by
      rw [State.beforeCancel]
      split
      · exact ⟨_, rfl, received⟩
      · exact ⟨_, rfl, received.trans (Notices.classify _ _).waitKept⟩
    obtain ⟨v, eq, kept⟩ := eq
    rw [eq] at waits ⊢
    have after := WaitKept.cancelKey (v.hearReplay k) k
    have setup : v.setup = s.setup := by rw [State.setup, kept.station]; rfl
    obtain ⟨waited, origin, epoch, asked, timer⟩ := ((kept.trans (hearReplay_waitKept v k)).trans after).tracker i waits
    refine ⟨waited, origin, epoch, asked, timer, fun mine era inside => ?_⟩
    have setup' : (v.hearReplay k).setup = s.setup :=
      (congrArg StationControl.setup (hearReplay_only v k .station (by decide))).trans setup
    obtain ⟨waits', -, -, -, timer'⟩ := after.tracker i waits
    rw [(hearReplay_pool v k).1 i] at waits' timer'
    rw [(afterReplay_fields v.setup k (v.tracker i)).1] at waits'
    obtain ⟨-, origin', epoch', asked', -⟩ := kept.tracker i waits'
    have fresh : ((v.tracker i).afterReplay v.setup k).timer = .repairTimeout s.setup.repairTimeout := by
      rw [Tracker.afterReplay, if_pos ⟨waits', origin'.trans mine, epoch'.trans era, by rw [asked']; exact inside⟩, setup]
    rcases timer' with same | new
    · rw [same, fresh]
    · rw [new, setup']

/-- Settles O48: tracker by tracker, then the reports that the duties bring. -/
theorem heardFramesAtTrackers : Obligations.HeardFramesAtTrackers := by
  refine ⟨fun origin epoch first count s => hearGapreq_pool origin epoch first count s, fun k s => hearReplay_pool s k,
    fun requester origin epoch first count s peer some few takes => ?_,
    fun k replayer payload s some few peer takes => replayAtTrackers k replayer payload s some few peer takes⟩
  obtain ⟨t, ends, calm, parks, asks⟩ := gapreqAtTrackers requester origin epoch first count s peer some few takes
  refine ⟨t, ends, calm, parks, asks.idle, fun h holdoff held => ⟨fun i request pending => ?_, fun other => ?_⟩⟩
  · rcases asks.request holdoff i (by rw [held, Option.map_some, request]) pending with ⟨still, same⟩ | ⟨gone, released⟩
    · exact ⟨fun _ => same, fun gone => absurd still gone⟩
    · exact ⟨fun still => absurd still gone, fun _ => released⟩
  · exact asks.other holdoff h.duty other (by rw [held, Option.map_some])

end Sys2Proof.Machine
end

section
/-! BEACONs and tracker timers at the contexts (O47, O50). -/

open Sys2Proof

namespace Sys2Proof.Machine

set_option Elab.async false

/-! ### Contexts decided afresh (R25, R44) -/

/-- The contexts differ in tracker-held flags, and synchronised ones between STEADY and GAPPED. -/
structure Settles (s t : State) : Prop where
  ctx : ∀ p : Station, t.ctx p = { s.ctx p with state := (t.ctx p).state, trackerHeld := (t.ctx p).trackerHeld }
  synced : ∀ p : Station, (t.ctx p).isSynced = (s.ctx p).isSynced
  other : ∀ p : Station, (s.ctx p).isSynced = false → (t.ctx p).state = (s.ctx p).state

namespace Settles

theorem of_held {s t : State} (h : HeldOnly s t) : Settles s t where
  ctx p := by
    have := h p
    rw [this]
  synced p := by
    rw [h p]
    rfl
  other p _ := by rw [h p]

theorem refl (s : State) : Settles s s := .of_held (.refl s)

theorem of_contexts {s t : State} (h : t.contexts = s.contexts) : Settles s t := .of_held (.of_contexts h)

theorem trans {s t u : State} (h : Settles s t) (k : Settles t u) : Settles s u where
  ctx p := by
    have first := h.ctx p
    have second := k.ctx p
    rw [first] at second
    exact second
  synced p := (k.synced p).trans (h.synced p)
  other p off := (k.other p ((h.synced p).trans off)).trans (h.other p off)

theorem place {s t : State} (h : Settles s t) (p : Station) : (t.ctx p).place = (s.ctx p).place := by
  rw [h.ctx p]
  rfl

/-- A synchronised context takes STEADY or GAPPED. -/
theorem setState {s : State} {o : Station} (synced : (s.ctx o).isSynced = true) {x : ContextState}
    (state : x = .steady ∨ x = .gapped) : Settles s (s.setCtx o { s.ctx o with state := x }) where
  ctx p := by
    rw [State.ctx_setCtx]
    split
    · rename_i eq
      rw [eq]
    · rfl
  synced p := by
    rw [State.ctx_setCtx]
    split
    · rename_i eq
      rw [eq, synced]
      rcases state with rfl | rfl <;> rfl
    · rfl
  other p off := by
    rw [State.ctx_setCtx]
    split
    · rename_i eq
      rw [eq, synced] at off
      cases off
    · rfl

theorem decideState (s : State) (o : Station) : Settles s (s.decideState o) := by
  unfold State.decideState
  split
  · rename_i synced
    refine .setState synced ?_
    split
    · exact .inr rfl
    · exact .inl rfl
  · exact .refl s

theorem settle (s : State) (o : Station) (was : ContextState) (must : Bool) : Settles s (s.settle o was must) := by
  unfold State.settle
  dsimp only
  split
  · exact (decideState s o).trans (.of_held (changeNotice_heldOnly _ _))
  · exact decideState s o

theorem endRestart (s : State) (o : Station) : Settles s (s.endRestart o) :=
  ((decideState s o).trans (.of_held (restartNotice_heldOnly _ _))).trans (.of_held (changeNotice_heldOnly _ _))

theorem reportFrom (s : State) (old : Nat) : Settles s (s.reportFrom old) :=
  .of_contexts (reportFrom_only s old .contexts (by decide))

theorem applyStore (s : State) (st : Store) : Settles s (s.applyStore st) :=
  .of_contexts (applyStore_only s st .contexts (by decide))

theorem insertFrame (s : State) (o : Station) (e : Entry) : Settles s (s.insertFrame o e).after := by
  unfold State.insertFrame
  have stored : Settles s (s.withStore (s.store.insert s.stn s.setup.ownShare e).2) := .of_contexts rfl
  dsimp only
  split
  · exact .refl s
  · exact .refl s
  · exact stored.trans (.reportFrom _ _)
  · refine (stored.trans ?_).trans (.reportFrom _ _)
    unfold State.tellEviction
    split
    · exact settle _ _ _ _
    · exact .refl _

theorem afterDueInsert (s : State) (a : InsertAnswer) : Settles s (s.afterDueInsert a) :=
  .of_contexts (afterDueInsert_only s a .contexts (by decide))

end Settles

/-! ### A restart up to its end (R37, R38) -/

/-- The fields of a context that a restart begins (R37). -/
def Context.restarted (c : Context) (epoch : Epoch) (nextDue horizon floor : SeqNum) : Context :=
  { c.countRestart with epoch := epoch, nextDue := nextDue, horizon := horizon, lossFloor := floor }

theorem beginRestart_ctx (s : State) (o : Station) (epoch : Epoch) (nextDue horizon floor : SeqNum) (p : Station) :
    (s.beginRestart o epoch nextDue horizon floor).ctx p =
      if p = o then (s.ctx o).restarted epoch nextDue horizon floor else s.ctx p := by
  have held (q : Station) : (((s.setCtx o (s.ctx o).countRestart).applyStore (s.store.restartRelease o (s.ctx o).epoch))).ctx q =
      (s.setCtx o (s.ctx o).countRestart).ctx q := State.ctx_congr (applyStore_only _ _ .contexts (by decide)) q
  unfold State.beginRestart
  dsimp only
  rw [State.ctx_setCtx, held, held, State.ctx_setCtx, if_pos rfl]
  split
  · rfl
  · rename_i other
    rw [State.ctx_setCtx, if_neg other]

theorem beginRestart_store (s : State) (o : Station) (epoch : Epoch) (nextDue horizon floor : SeqNum) :
    (s.beginRestart o epoch nextDue horizon floor).store = s.store.restartRelease o (s.ctx o).epoch :=
  applyStore_store _ _

theorem countRestart_fields (c : Context) : c.countRestart.restartPending = true ∧
    (c.restartPending = false → c.countRestart.restartOldEpoch = c.epoch ∧
      c.countRestart.restartCount = c.horizon + 1 - c.nextDue) ∧
    (c.restartPending = true → c.countRestart.restartOldEpoch = c.restartOldEpoch ∧
      c.countRestart.restartCount.toNat = min (c.restartCount.toNat + (c.horizon + 1 - c.nextDue).toNat) 65535) ∧
    c.countRestart.heardSinceReset = c.heardSinceReset ∧ c.countRestart.silent = c.silent ∧
    c.countRestart.silenceTimer = c.silenceTimer ∧ c.countRestart.state = c.state := by
  unfold Context.countRestart
  split
  · rename_i pending
    exact ⟨pending, fun clear => absurd (clear.symm.trans pending) (by decide), fun _ => ⟨rfl, satAdd_toNat _ _⟩, rfl, rfl, rfl, rfl⟩
  · rename_i clear
    exact ⟨rfl, fun _ => ⟨rfl, rfl⟩, fun pending => absurd pending clear, rfl, rfl, rfl, rfl⟩

theorem newer_self (e : Epoch) : newer e e = false := by simp [newer]

/-! ### BEACONs (R40, R41) -/

theorem takeBeacon_synced {s : State} {o : Station} (synced : (s.ctx o).isSynced = true) (epoch : Epoch) (nextSeq : SeqNum) :
    s.takeBeacon o epoch nextSeq =
      if newer epoch (s.ctx o).epoch then s.restartBeacon o epoch nextSeq
      else if epoch = (s.ctx o).epoch then s.raiseByBeacon o nextSeq
      else s := by
  have peerState : (s.ctx o).state = .steady ∨ (s.ctx o).state = .gapped := by simpa [Context.isSynced] using synced
  rcases peerState with h | h <;> simp only [State.takeBeacon, h]

/-- What a frame at the context of `o` leaves of any context (R41). -/
structure FrameLeaves (s t : State) (o : Station) : Prop where
  heard : ∀ p : Station, (t.ctx p).heardSinceReset = (s.ctx p).heardSinceReset ∧ (t.ctx p).silent = (s.ctx p).silent ∧
    (t.ctx p).silenceTimer = (s.ctx p).silenceTimer
  others : ∀ p : Station, p ≠ o → (t.ctx p).place = (s.ctx p).place

theorem FrameLeaves.setCtx {s : State} {o : Station} {c : Context} (heard : c.heardSinceReset = (s.ctx o).heardSinceReset)
    (silent : c.silent = (s.ctx o).silent) (timer : c.silenceTimer = (s.ctx o).silenceTimer) :
    FrameLeaves s (s.setCtx o c) o :=
  ⟨fun p => by
      rw [State.ctx_setCtx]
      split
      · rename_i eq
        exact eq ▸ ⟨heard, silent, timer⟩
      · exact ⟨rfl, rfl, rfl⟩,
    fun p other => by rw [State.ctx_setCtx, if_neg other]⟩

theorem FrameLeaves.settles {s t u : State} {o : Station} (h : FrameLeaves s t o) (k : Settles t u) : FrameLeaves s u o := by
  refine ⟨fun p => ?_, fun p other => (k.place p).trans (h.others p other)⟩
  rw [k.ctx p]
  exact h.heard p

theorem FrameLeaves.beginRestart (s : State) (o : Station) (epoch : Epoch) (nextDue horizon floor : SeqNum) :
    FrameLeaves s (s.beginRestart o epoch nextDue horizon floor) o := by
  obtain ⟨-, -, -, heard, silent, timer, -⟩ := countRestart_fields (s.ctx o)
  refine ⟨fun p => ?_, fun p other => by rw [beginRestart_ctx, if_neg other]⟩
  rw [beginRestart_ctx]
  split
  · rename_i eq
    subst eq
    exact ⟨heard, silent, timer⟩
  · exact ⟨rfl, rfl, rfl⟩

theorem takeBeacon_keeps (s : State) (o : Station) (epoch : Epoch) (nextSeq : SeqNum) :
    FrameLeaves s (s.takeBeacon o epoch nextSeq) o := by
  have none : FrameLeaves s s o := ⟨fun _ => ⟨rfl, rfl, rfl⟩, fun _ _ => rfl⟩
  unfold State.takeBeacon
  dsimp only
  split
  · exact none
  · exact .setCtx rfl rfl rfl
  · split
    · unfold State.restartBeacon
      dsimp only
      split
      · exact (FrameLeaves.beginRestart _ _ _ _ _ _).settles (.endRestart _ _)
      · exact (FrameLeaves.beginRestart _ _ _ _ _ _).settles (.endRestart _ _)
    · split
      · unfold State.raiseByBeacon
        dsimp only
        split
        · refine FrameLeaves.settles ?_ (.settle _ _ _ _)
          exact .setCtx rfl rfl rfl
        · exact none
      · exact none

theorem endRestart_store (s : State) (o : Station) : (s.endRestart o).store = s.store := endRestart_only s o .store (by decide)

theorem settle_store (s : State) (o : Station) (was : ContextState) (must : Bool) : (s.settle o was must).store = s.store :=
  settle_only s o was must .store (by decide)

/-- A BEACON of the context's own epoch (R41). -/
theorem raiseByBeacon_place (s : State) (o : Station) (nextSeq : SeqNum) : (s.raiseByBeacon o nextSeq).store = s.store ∧
    ((s.raiseByBeacon o nextSeq).ctx o).place =
      if ((nextSeq - 1) - (s.ctx o).nextDue).toNat ≤ 32767 ∧ after (nextSeq - 1) (s.ctx o).horizon = true then
        ((s.ctx o).epoch, (s.ctx o).nextDue, nextSeq - 1,
          if ((s.ctx o).base - (s.ctx o).nextDue).toNat + 64 ≤ ((nextSeq - 1) - (s.ctx o).nextDue).toNat then nextSeq - 64
          else (s.ctx o).lossFloor)
      else (s.ctx o).place := by
  have back : nextSeq - 1 - 63 = nextSeq - 64 := by bv_omega
  unfold State.raiseByBeacon
  dsimp only
  unfold offset
  split
  · refine ⟨settle_store _ _ _ _, ?_⟩
    rw [(Settles.settle _ _ _ _).place, State.ctx_setCtx, if_pos rfl, back]
    rfl
  · exact ⟨rfl, rfl⟩

/-- Next-due and floor that a BEACON of a newer epoch leaves (R37, R38). -/
def restartByBeacon (nextSeq : SeqNum) : SeqNum × SeqNum :=
  if nextSeq.toNat ≤ 32768 then (0, largerOfZero nextSeq 64) else (nextSeq, nextSeq)

theorem restartBeacon_eq (s : State) (o : Station) (epoch : Epoch) (nextSeq : SeqNum) : s.restartBeacon o epoch nextSeq =
    (s.beginRestart o epoch (restartByBeacon nextSeq).1 (nextSeq - 1) (restartByBeacon nextSeq).2).endRestart o := by
  unfold State.restartBeacon restartByBeacon
  split <;> rfl

/-- A BEACON of a newer epoch (R37, R38, R41). -/
theorem restartBeacon_ctx (s : State) (o : Station) (epoch : Epoch) (nextSeq : SeqNum) :
    ((s.restartBeacon o epoch nextSeq).ctx o) =
      { (s.ctx o).restarted epoch (restartByBeacon nextSeq).1 (nextSeq - 1) (restartByBeacon nextSeq).2 with
        state := ((s.restartBeacon o epoch nextSeq).ctx o).state
        trackerHeld := ((s.restartBeacon o epoch nextSeq).ctx o).trackerHeld } ∧
    (s.restartBeacon o epoch nextSeq).store = s.store.restartRelease o (s.ctx o).epoch := by
  rw [restartBeacon_eq, endRestart_store, beginRestart_store]
  have settles := Settles.endRestart
    (s.beginRestart o epoch (restartByBeacon nextSeq).1 (nextSeq - 1) (restartByBeacon nextSeq).2) o
  have ctx := settles.ctx o
  rw [beginRestart_ctx, if_pos rfl] at ctx
  exact ⟨ctx, rfl⟩

theorem count_rxGood (s : State) : (s.count .rxGood).counters =
    { s.counters with rxGood := BitVec.ofNat 16 (min (s.counters.rxGood.toNat + 1) 65535) } := rfl

/-- Settles O47. -/
theorem beaconIsTaken : Obligations.BeaconIsTaken := by
  intro o epoch nextSeq s peer takes
  refine ⟨_, congrArg Host.Outcome.next (burstEnds_peer takes (f := .beacon o epoch nextSeq) rfl peer), ?_⟩
  have received := received_only s o
  have same : (s.received (Frame.beacon o epoch nextSeq).sender).distribute (.beacon o epoch nextSeq) =
      (s.received o).takeBeacon o epoch nextSeq := rfl
  have only := takeBeacon_only (s.received o) o epoch nextSeq
  have keeps := takeBeacon_keeps (s.received o) o epoch nextSeq
  have heard := received_ctx s o o
  rw [if_pos rfl] at heard
  obtain ⟨place, state, -⟩ := received_place s o o
  have store : (s.received o).store = s.store := rfl
  rw [same]
  refine ⟨only .counters (by decide), only .events (by decide), only .submission (by decide), only .delivery (by decide),
    only .station (by decide), only .control (by decide), only .out (by decide), only .pending (by decide),
    only .duties (by decide), ?_, ?_, ?_, fun p other => ?_, fun unsynced => ?_, fun synced => ?_⟩
  · rw [(keeps.heard o).1, heard]
  · rw [(keeps.heard o).2.1, heard]
  · rw [(keeps.heard o).2.2, heard]
  · rw [keeps.others p other, (received_place s o p).1]
  · have takes : (s.received o).takeBeacon o epoch nextSeq = (s.received o).setCtx o
        { (s.received o).ctx o with
          state := .steady, epoch := epoch, nextDue := nextSeq, lossFloor := nextSeq, horizon := nextSeq - 1 } := by
      simp only [State.takeBeacon, state.trans unsynced]
    rw [takes, State.ctx_setCtx, if_pos rfl]
    exact ⟨rfl, rfl, rfl⟩
  · have synced' : ((s.received o).ctx o).isSynced = true := by
      rw [Context.isSynced, state]
      exact synced
    have epochEq : ((s.received o).ctx o).epoch = (s.ctx o).epoch := congrArg Prod.fst place
    have dueEq : ((s.received o).ctx o).nextDue = (s.ctx o).nextDue := congrArg (·.2.1) place
    have horizonEq : ((s.received o).ctx o).horizon = (s.ctx o).horizon := congrArg (·.2.2.1) place
    have floorEq : ((s.received o).ctx o).lossFloor = (s.ctx o).lossFloor := congrArg (·.2.2.2) place
    rw [takeBeacon_synced synced', epochEq]
    refine ⟨fun older other => ?_, fun mine => ?_, fun new => ?_⟩
    · rw [older, if_neg Bool.false_ne_true, if_neg other]
      exact ⟨place, store⟩
    · subst mine
      obtain ⟨kept, raised⟩ := raiseByBeacon_place (s.received o) o nextSeq
      rw [newer_self, if_neg Bool.false_ne_true, if_pos rfl]
      refine ⟨kept, raised.trans ?_⟩
      simp only [Context.base, epochEq, dueEq, horizonEq, floorEq, place]
      rfl
    · rw [new, if_pos rfl]
      obtain ⟨ctx, released⟩ := restartBeacon_ctx (s.received o) o epoch nextSeq
      obtain ⟨pending, fresh, again, -⟩ := countRestart_fields ((s.received o).ctx o)
      have restart : ((s.received o).ctx o).restartPending = (s.ctx o).restartPending ∧
          ((s.received o).ctx o).restartOldEpoch = (s.ctx o).restartOldEpoch ∧
          ((s.received o).ctx o).restartCount = (s.ctx o).restartCount := by
        rw [heard]
        exact ⟨rfl, rfl, rfl⟩
      rw [epochEq, dueEq, horizonEq, restart.1] at fresh
      rw [dueEq, horizonEq, restart.1, restart.2.1, restart.2.2] at again
      refine ⟨?_, ?_, fun clear => ?_, fun was => ?_, ?_⟩
      · rw [ctx]
        exact pending
      · rw [released, store, epochEq]
      · rw [ctx]
        exact fresh clear
      · rw [ctx]
        exact again was
      · rw [ctx]
        show (epoch, (restartByBeacon nextSeq).1, nextSeq - 1, (restartByBeacon nextSeq).2) = _
        unfold restartByBeacon largerOfZero
        split <;> rfl

/-! ### The give-up of a run (R42, R64) -/

/-- A tracker keeps origin and attempts, or has no attempts. -/
def Tracker.KeptOr (x y : Tracker) : Prop := y.attempts = 0 ∨ (y.origin = x.origin ∧ y.attempts = x.attempts)

theorem Tracker.KeptOr.refl (x : Tracker) : x.KeptOr x := .inr ⟨rfl, rfl⟩

theorem Tracker.KeptOr.trans {x y z : Tracker} (h : x.KeptOr y) (k : y.KeptOr z) : x.KeptOr z := by
  rcases k with zero | ⟨origin, attempts⟩
  · exact .inl zero
  · rcases h with zero | ⟨origin', attempts'⟩
    · exact .inl (attempts.trans zero)
    · exact .inr ⟨origin.trans origin', attempts.trans attempts'⟩

theorem claim_keptOr (s : State) (i j : Fin 8) (o : Station) :
    ((s.claim j o).tracker i).attempts = 0 ∨ (s.claim j o).tracker i = s.tracker i := by
  obtain eq | ⟨first, count, -, eq⟩ := claim_eq s j o
  · rw [eq]
    exact .inr rfl
  · rw [eq, claim_tracker]
    split
    · exact .inl rfl
    · exact .inr rfl

theorem keptOr_of {x y : Tracker} (h : y.attempts = 0 ∨ y = x) : x.KeptOr y := h.imp_right fun eq => by rw [eq]; exact ⟨rfl, rfl⟩

theorem offer_keptOr (s : State) (i j : Fin 8) :
    ((s.offer j).tracker i).attempts = 0 ∨ (s.offer j).tracker i = s.tracker i := by
  unfold State.offer
  split
  · exact claim_keptOr s i j _
  · exact .inr rfl

theorem freeTracker_keptOr (s : State) (i j : Fin 8) : (s.tracker i).KeptOr ((s.freeTracker j).tracker i) := by
  have released : (s.tracker i).KeptOr ((s.release j).tracker i) := by
    rw [release_tracker]
    split
    · rename_i eq
      rw [eq]
      exact .inr ⟨rfl, rfl⟩
    · exact .refl _
  rw [freeTracker_eq]
  split
  · exact .refl _
  · split
    · exact released.trans (keptOr_of (offer_keptOr _ i j))
    · exact released

/-- A freed tracker is FREE or serves afresh (R53, R55). -/
theorem freeTracker_fresh (s : State) (i : Fin 8) :
    ((s.freeTracker i).tracker i).state = .free ∨ ((s.freeTracker i).tracker i).attempts = 0 := by
  have released : ((s.release i).tracker i).state = .free := by rw [release_tracker, if_pos rfl]
  rw [freeTracker_eq]
  split
  · rename_i free
    exact .inl free
  · split
    · rcases offer_keptOr (s.release i) i i with zero | same
      · exact .inr zero
      · exact .inl (by rw [same, released])
    · exact .inl released

theorem claimIfWaiting_keptOr (s : State) (i : Fin 8) (o : Station) :
    ((s.claimIfWaiting o).tracker i).attempts = 0 ∨ (s.claimIfWaiting o).tracker i = s.tracker i := by
  unfold State.claimIfWaiting
  split
  · split
    · exact claim_keptOr s i _ o
    · exact .inr rfl
  · exact .inr rfl

theorem changeNotice_keptOr (s : State) (i : Fin 8) (o : Station) : (s.tracker i).KeptOr ((s.changeNotice o).tracker i) := by
  have changed (j : Fin 8) (x : Tracker) (kept : (s.tracker j).KeptOr x) : (s.tracker i).KeptOr ((s.setTracker j x).tracker i) := by
    rw [State.tracker_setTracker]
    split
    · rename_i eq
      rw [eq]
      exact kept
    · exact .refl _
  unfold State.changeNotice
  split
  · rename_i j _
    unfold State.recompute
    dsimp only
    split
    · exact freeTracker_keptOr s i j
    · split
      · exact changed j _ (.inr ⟨rfl, rfl⟩)
      · split
        · split
          · exact changed j _ (.inl rfl)
          · exact changed j _ (.inl rfl)
        · exact changed j _ (.inl rfl)
  · exact keptOr_of (claimIfWaiting_keptOr s i o)

theorem giveUp_keptOr (s : State) (i : Fin 8) (o : Station) (epoch : Epoch) (value : SeqNum) :
    (s.tracker i).KeptOr ((s.giveUp o epoch value).tracker i) := by
  have decided (u : State) (o : Station) : (u.decideState o).tracker i = u.tracker i :=
    State.tracker_congr (congrArg _ (decideState_only u o .pool (by decide))) i
  unfold State.giveUp
  dsimp only
  split
  · unfold State.settle
    dsimp only
    split
    · have := changeNotice_keptOr ((s.setCtx o { s.ctx o with lossFloor := (s.ctx o).giveUpFloor value }).decideState o) i o
      rw [decided] at this
      exact this
    · rw [decided]
      exact .refl _
  · exact .refl _

/-- The give-up leaves the tracker FREE or serving afresh (R64). -/
theorem giveUpRun_fresh (s : State) (i : Fin 8) :
    ((s.giveUpRun i).tracker i).state = .free ∨ ((s.giveUpRun i).tracker i).attempts = 0 := by
  have gaveUp := giveUp_keptOr s i (s.tracker i).origin (s.tracker i).epoch
    ((s.tracker i).runFirst + BitVec.ofNat 16 (s.tracker i).runCount)
  unfold State.giveUpRun
  dsimp only
  generalize s.giveUp (s.tracker i).origin (s.tracker i).epoch
    ((s.tracker i).runFirst + BitVec.ofNat 16 (s.tracker i).runCount) = u at gaveUp ⊢
  have fresh : ((if (u.tracker i).origin = (s.tracker i).origin then u.freeTracker i else u).tracker i).state = .free ∨
      ((if (u.tracker i).origin = (s.tracker i).origin then u.freeTracker i else u).tracker i).attempts = 0 := by
    split
    · exact freeTracker_fresh u i
    · rename_i other
      rcases gaveUp with zero | ⟨same, -⟩
      · exact .inr zero
      · exact absurd same other
  rcases claimIfWaiting_keptOr (if (u.tracker i).origin = (s.tracker i).origin then u.freeTracker i else u) i
    (s.tracker i).origin with zero | same
  · exact .inr zero
  · rw [same]
    exact fresh

/-- The places that a give-up claim leaves (R42). -/
theorem giveUp_place (s : State) (o : Station) (epoch : Epoch) (value : SeqNum) (p : Station) :
    ((s.giveUp o epoch value).ctx p).place =
      if p = o ∧ (s.ctx o).isSynced = true ∧ (s.ctx o).epoch = epoch then
        ((s.ctx o).epoch, (s.ctx o).nextDue, (s.ctx o).horizon, (s.ctx o).giveUpFloor value)
      else (s.ctx p).place := by
  unfold State.giveUp
  dsimp only
  split
  · rename_i taken
    rw [(Settles.settle _ _ _ _).place, State.ctx_setCtx]
    by_cases eq : p = o
    · rw [if_pos eq, if_pos ⟨eq, taken.1, taken.2.1⟩]
      rfl
    · rw [if_neg eq, if_neg fun h => eq h.1]
  · rename_i untaken
    split
    · rename_i mine
      obtain ⟨rfl, synced, era⟩ := mine
      have same : (s.ctx p).giveUpFloor value = (s.ctx p).lossFloor := by
        by_contra other
        exact untaken ⟨synced, era, other⟩
      rw [same]
      rfl
    · rfl

theorem giveUpRun_place (s : State) (i : Fin 8) (p : Station) : ((s.giveUpRun i).ctx p).place =
    ((s.giveUp (s.tracker i).origin (s.tracker i).epoch
      ((s.tracker i).runFirst + BitVec.ofNat 16 (s.tracker i).runCount)).ctx p).place := by
  unfold State.giveUpRun
  dsimp only
  rw [(Settles.of_held (claimIfWaiting_heldOnly _ _)).place]
  split
  · rw [(Settles.of_held (freeTracker_heldOnly _ _)).place]
  · rfl

/-- The floor after a give-up up to the number `past` from next-due (R42). -/
theorem giveUpFloor_offset {c : Context} (bounded : c.Bounded) {past : Nat} (small : past ≤ 32768) :
    (c.giveUpFloor (c.nextDue + BitVec.ofNat 16 past) - c.nextDue).toNat =
      if after (c.nextDue + BitVec.ofNat 16 past) c.lossFloor = true then
        max (c.lossFloor - c.nextDue).toNat (min past (min (c.horizon + 1 - c.nextDue).toNat 32767))
      else (c.lossFloor - c.nextDue).toNat := by
  have extent : c.extent = (c.horizon + 1 - c.nextDue).toNat := if_pos bounded.horizon
  have forward : offset c.nextDue (c.nextDue + BitVec.ofNat 16 past) = past := by
    unfold offset
    generalize c.nextDue = n
    bv_omega
  unfold Context.giveUpFloor
  dsimp only
  rw [extent, forward]
  split
  · unfold offset
    split
    · rename_i less
      have bound : min past (min (c.horizon + 1 - c.nextDue).toNat 32767) ≤ 32767 := by omega
      generalize min past (min (c.horizon + 1 - c.nextDue).toNat 32767) = m at less bound ⊢
      have : (c.nextDue + BitVec.ofNat 16 m - c.nextDue).toNat = m := by
        generalize c.nextDue = n
        bv_omega
      omega
    · omega
  · rfl

/-- Settles O50. -/
theorem trackerTimersRunOut : Obligations.TrackerTimersRunOut := by
  intro i n s
  refine ⟨fun runs => ?_, fun runs below => ?_, fun runs limit => ?_⟩
  · simp only [exec, execRequestDelayRunsOut, runs]
  · simp only [exec, execRepairTimeoutRunsOut, runs, below, if_true]
    rfl
  · have ends : exec (.repairTimeoutRunsOut i) s = .next (s.giveUpRun i) := by
      simp only [exec, execRepairTimeoutRunsOut, runs, Nat.not_lt.mpr limit, if_false]
    have only := giveUpRun_only s i
    have place (p : Station) := (giveUpRun_place s i p).trans (giveUp_place s _ _ _ p)
    refine ⟨_, ends, giveUpRun_fresh s i, only .store (by decide), only .delivery (by decide), only .duties (by decide),
      only .submission (by decide), only .station (by decide), only .events (by decide), only .counters (by decide),
      only .trunk (by decide), only .control (by decide), fun o other => ?_, ?_, ?_, fun synced era bounded past small value => ?_⟩
    · rw [place, if_neg fun h => other h.1]
    · have due := congrArg (·.2.1) (place (s.tracker i).origin)
      refine due.trans ?_
      split <;> rfl
    · have horizon := congrArg (·.2.2.1) (place (s.tracker i).origin)
      refine horizon.trans ?_
      split <;> rfl
    · have floor := congrArg (·.2.2.2) (place (s.tracker i).origin)
      rw [if_pos ⟨rfl, synced, era⟩, value] at floor
      have floor' : ((s.giveUpRun i).ctx (s.tracker i).origin).lossFloor = _ := floor
      rw [floor']
      exact giveUpFloor_offset bounded small

end Sys2Proof.Machine
end

section
/-! A GAPREQ heard in ACTIVE makes duties (O49). -/

open Sys2Proof

namespace Sys2Proof.Machine

set_option Elab.async false

/-! ### Keys held without TX -/

theorem heldWithoutTx_eq (st : Store) (k : Key) : st.heldWithoutTx k = (st.find k).any fun e => !e.pins.tx := by
  cases found : st.find k with
  | none => exact (Store.lookup_of_absent found).2.2.2
  | some e => exact (Store.lookup_of_find found).2.2.2

/-- What a key's examination brings: a duty, a count, or nothing (R76, R77). -/
theorem examineKey_cases (s : State) (requester : Station) (k : Key) :
    (∃ d, s.duty d = none ∧ s.store.heldWithoutTx k = true ∧
      s.examineKey requester k = (s.applyStore (s.store.mapPins k fun p => { p with tx := true })).makeDuty d k
        (s.replayDelay k requester)) ∨
    (s.store.heldWithoutTx k = true ∧ (∀ d, (s.duty d).isSome = true) ∧ s.examineKey requester k = s.count .dutyDrops) ∨
    (s.store.heldWithoutTx k = false ∧ s.examineKey requester k = s) := by
  rw [heldWithoutTx_eq]
  unfold State.examineKey
  cases lowest : s.lowestDuty with
  | none =>
    have all (d : Fin 16) : (s.duty d).isSome = true := by
      have := List.find?_eq_none.mp lowest d (List.mem_finRange d)
      cases h : s.duty d with
      | none => rw [h] at this; exact absurd rfl this
      | some x => rfl
    rw [← heldWithoutTx_eq]
    by_cases held : s.store.heldWithoutTx k = true
    · exact .inr (.inl ⟨held, all, if_pos held⟩)
    · exact .inr (.inr ⟨Bool.not_eq_true _ ▸ held, if_neg held⟩)
  | some d =>
    cases found : s.store.find k with
    | none =>
      refine .inr (.inr ⟨rfl, ?_⟩)
      rw [pinTx_absent found]
    | some e =>
      cases tx : e.pins.tx with
      | true =>
        refine .inr (.inr ⟨by simp [tx], ?_⟩)
        rw [pinTx_already found tx]
      | false =>
        refine .inl ⟨d, lowestDuty_spec lowest, by simp [tx], ?_⟩
        rw [pinTx_pins found tx]

/-- A duty of key `k` that was not there before. -/
def MadeDuty (s t : State) (k : Key) : Prop := ∃ d : Fin 16, s.duty d = none ∧ (t.duty d).map (fun x => x.key) = some k

/-- What the examination of the keys `l` has made of `s`. -/
structure Answers (requester : Station) (l : List Key) (s t : State) : Prop where
  station : t.station = s.station
  stand : ∀ d x, s.duty d = some x → t.duty d = some x
  eligible : ∀ d ∈ s.duties.eligible, d ∈ t.duties.eligible
  tx : ∀ k, s.store.heldWithTx k → t.store.heldWithTx k
  others : ∀ k, k ∉ l → t.store.heldWithoutTx k = s.store.heldWithoutTx k
  made : ∀ d x, s.duty d = none → t.duty d = some x → x.key ∈ l ∧ s.store.heldWithoutTx x.key = true ∧
    t.store.heldWithTx x.key ∧ x = madeDuty x.key (s.replayDelay x.key requester) ∧
    (s.replayDelay x.key requester = 0 → d ∈ t.duties.eligible)
  asked : ∀ k ∈ l, s.store.heldWithoutTx k = true → MadeDuty s t k ∨ ∀ d, (t.duty d).isSome = true
  drops : ∀ p : Key → Bool, (∀ k, p k = true ↔ MadeDuty s t k) → t.counters.dutyDrops.toNat =
    min (s.counters.dutyDrops.toNat + l.countP fun k => s.store.heldWithoutTx k && !p k) 65535

theorem Answers.nil (requester : Station) (s : State) : Answers requester [] s s where
  station := rfl
  stand _ _ := id
  eligible _ := id
  tx _ := id
  others _ _ := rfl
  made d x free there := by rw [free] at there; cases there
  asked _ mem := absurd mem (by simp)
  drops _ _ := by
    have := s.counters.dutyDrops.isLt
    simp only [List.countP_nil]
    omega

section Cons

variable {requester : Station} {k : Key} {l : List Key} {s u t : State}

/-- A key that brings nothing. -/
theorem Answers.cons_none (h : Answers requester l s t) (held : s.store.heldWithoutTx k = false) :
    Answers requester (k :: l) s t where
  station := h.station
  stand := h.stand
  eligible := h.eligible
  tx := h.tx
  others j out := h.others j fun mem => out (.tail _ mem)
  made d x free there := by
    obtain ⟨mem, rest⟩ := h.made d x free there
    exact ⟨.tail _ mem, rest⟩
  asked j mem without := by
    rcases List.mem_cons.mp mem with rfl | mem
    · rw [held] at without
      cases without
    · exact h.asked j mem without
  drops p means := by
    rw [h.drops p means, List.countP_cons_of_neg (by simp [held])]

/-- A key that would need a duty while none is free (R77). -/
theorem Answers.cons_drop (h : Answers requester l (s.count .dutyDrops) t) (full : ∀ d, (s.duty d).isSome = true)
    (held : s.store.heldWithoutTx k = true) : Answers requester (k :: l) s t := by
  have used (d : Fin 16) : s.duty d ≠ none := fun free => by
    have := full d
    rw [free] at this
    cases this
  have never (j : Key) : ¬ MadeDuty s t j := fun ⟨d, free, _⟩ => used d free
  have stays (d : Fin 16) : (t.duty d).isSome = true := by
    obtain ⟨x, there⟩ := Option.isSome_iff_exists.mp (full d)
    rw [h.stand d x there]
    rfl
  refine ⟨h.station, h.stand, h.eligible, h.tx, fun j out => h.others j fun mem => out (.tail _ mem),
    fun d x free _ => absurd free (used d), fun _ _ _ => .inr stays, fun p means => ?_⟩
  have counted : ((s.count .dutyDrops).counters.dutyDrops).toNat = min (s.counters.dutyDrops.toNat + 1) 65535 :=
    satAdd_toNat _ _
  have noP : p k = false := Bool.eq_false_iff.mpr fun yes => never k ((means k).mp yes)
  rw [h.drops p means, counted, List.countP_cons_of_pos (by simp [held, noP])]
  have : (s.count .dutyDrops).store = s.store := rfl
  rw [this]
  omega

/-- The state after duty `d` is made for `k` (R76). -/
def State.withReplayDuty (s : State) (requester : Station) (d : Fin 16) (k : Key) : State :=
  (s.applyStore (s.store.mapPins k fun p => { p with tx := true })).makeDuty d k (s.replayDelay k requester)

theorem withReplayDuty_store (s : State) (requester : Station) (d : Fin 16) (k : Key) :
    (s.withReplayDuty requester d k).store = s.store.mapPins k fun p => { p with tx := true } :=
  (makeDuty_only _ d k _ .store (by decide)).trans (applyStore_store _ _)

theorem withReplayDuty_only (s : State) (requester : Station) (d : Fin 16) (k : Key) :
    Only [.store, .pool, .sched, .duties] s (s.withReplayDuty requester d k) :=
  ((applyStore_only _ _).then (makeDuty_only _ d k _)).mono

theorem withReplayDuty_duty (s : State) (requester : Station) (d : Fin 16) (k : Key) :
    (∀ e, (s.withReplayDuty requester d k).duty e =
      if e = d then some (madeDuty k (s.replayDelay k requester)) else s.duty e) ∧
    (s.withReplayDuty requester d k).duties.eligible =
      if s.replayDelay k requester = 0 then s.duties.eligible ++ [d] else s.duties.eligible := by
  have duties : (s.applyStore (s.store.mapPins k fun p => { p with tx := true })).duties = s.duties :=
    applyStore_only s _ .duties (by decide)
  refine ⟨fun e => ?_, ?_⟩
  · rw [State.withReplayDuty, makeDuty_duty, State.duty_congr (congrArg _ duties)]
  · rw [State.withReplayDuty, makeDuty_eligible, duties]

theorem replayDelay_congr (station : u.station = s.station) (k : Key) (requester : Station) :
    u.replayDelay k requester = s.replayDelay k requester := by
  simp only [State.replayDelay, State.setup, State.stn, station]
  rfl

theorem madeDuty_count (k : Key) (delay : Nat) : (madeDuty k delay).count = 0 := by
  unfold madeDuty
  split <;> rfl

theorem madeDuty_key (k : Key) (delay : Nat) : (madeDuty k delay).key = k := by
  unfold madeDuty
  split <;> rfl

/-- A key that gets a duty (R76). -/
theorem Answers.cons_made {d : Fin 16} (h : Answers requester l (s.withReplayDuty requester d k) t) (free : s.duty d = none)
    (held : s.store.heldWithoutTx k = true) (fresh : k ∉ l) : Answers requester (k :: l) s t := by
  obtain ⟨duty, eligible⟩ := withReplayDuty_duty s requester d k
  have store := withReplayDuty_store s requester d k
  have only := withReplayDuty_only s requester d k
  have made : (s.withReplayDuty requester d k).duty d = some (madeDuty k (s.replayDelay k requester)) := by
    rw [duty, if_pos rfl]
  have there := h.stand d _ made
  have other {j : Key} (ne : j ≠ k) : (s.withReplayDuty requester d k).store.heldWithoutTx j = s.store.heldWithoutTx j := by
    rw [heldWithoutTx_eq, heldWithoutTx_eq, store, find_mapPins_other ne]
  have delay (j : Key) : (s.withReplayDuty requester d k).replayDelay j requester = s.replayDelay j requester :=
    replayDelay_congr (only .station (by decide)) j requester
  have pinned : t.store.heldWithTx k := by
    refine h.tx k ?_
    rw [store]
    rw [heldWithoutTx_eq] at held
    cases found : s.store.find k with
    | none => rw [found] at held; cases held
    | some e =>
      have after := find_mapPins_self found fun p => { p with tx := true }
      exact ⟨_, (Store.find_eq_some after).1, (Store.find_eq_some after).2, rfl⟩
  have notIn {j : Key} (mem : j ∈ l) : j ≠ k := ne_of_mem_of_not_mem mem fresh
  have mine : MadeDuty s t k := ⟨d, free, by rw [there, Option.map_some, madeDuty_key]⟩
  have rest {j : Key} (ne : j ≠ k) : MadeDuty (s.withReplayDuty requester d k) t j ↔ MadeDuty s t j := by
    constructor
    · rintro ⟨e, unused, key⟩
      rw [duty] at unused
      split at unused
      · cases unused
      · exact ⟨e, unused, key⟩
    · rintro ⟨e, unused, key⟩
      refine ⟨e, ?_, key⟩
      rw [duty, if_neg]
      · exact unused
      · rintro rfl
        rw [there, Option.map_some, madeDuty_key] at key
        exact ne (Option.some.inj key).symm
  refine ⟨h.station.trans (only .station (by decide)), fun e x used => ?_, fun e mem => ?_, fun j tx => ?_,
    fun j out => ?_, fun e x unused new => ?_, fun j mem without => ?_, fun p means => ?_⟩
  · refine h.stand e x ?_
    rw [duty, if_neg]
    · exact used
    · rintro rfl
      rw [free] at used
      cases used
  · refine h.eligible e ?_
    rw [eligible]
    split
    · exact List.mem_append_left _ mem
    · exact mem
  · refine h.tx j ?_
    rw [store]
    exact Store.carries.mapPins ((Store.heldWithTx_iff _ _).mp tx) k _ fun _ _ _ => rfl
  · rw [h.others j fun mem => out (.tail _ mem), other fun eq => out (eq ▸ .head _)]
  · by_cases eq : e = d
    · subst eq
      obtain rfl : x = madeDuty k (s.replayDelay k requester) := Option.some.inj (new.symm.trans there)
      rw [madeDuty_key]
      refine ⟨.head _, held, pinned, rfl, fun zero => h.eligible e ?_⟩
      rw [eligible, if_pos zero]
      simp
    · obtain ⟨mem, without, tx, is, joins⟩ := h.made e x (by rw [duty, if_neg eq]; exact unused) new
      rw [other (notIn mem)] at without
      rw [delay] at is joins
      exact ⟨.tail _ mem, without, tx, is, joins⟩
  · rcases List.mem_cons.mp mem with rfl | mem
    · exact .inl mine
    · rcases h.asked j mem (by rw [other (notIn mem)]; exact without) with made | full
      · exact .inl ((rest (notIn mem)).mp made)
      · exact .inr full
  · have counters : (s.withReplayDuty requester d k).counters = s.counters := only .counters (by decide)
    have means' : ∀ j, (p j && decide (j ≠ k)) = true ↔ MadeDuty (s.withReplayDuty requester d k) t j := fun j => by
      rw [Bool.and_eq_true, decide_eq_true_eq, means]
      constructor
      · rintro ⟨made, ne⟩
        exact (rest ne).mpr made
      · rintro ⟨e, unused, key⟩
        obtain ⟨x, new, rfl⟩ := Option.map_eq_some_iff.mp key
        have ne := notIn (h.made e x unused new).1
        exact ⟨(rest ne).mp ⟨e, unused, key⟩, ne⟩
    have yes : p k = true := (means k).mpr mine
    rw [h.drops _ means', counters, List.countP_cons_of_neg (by simp [yes])]
    refine congrArg (fun n => min (s.counters.dutyDrops.toNat + n) 65535) (List.countP_congr fun j mem => ?_)
    rw [other (notIn mem)]
    simp [notIn mem]

end Cons

/-- The keys asked for, one after another (R75). -/
theorem answers_fold (requester : Station) (l : List Key) (nodup : l.Nodup) (s : State) :
    Answers requester l s (l.foldl (fun s k => s.examineKey requester k) s) := by
  induction l generalizing s with
  | nil => exact .nil requester s
  | cons k l ih =>
    obtain ⟨fresh, nodup⟩ := List.nodup_cons.mp nodup
    rw [List.foldl_cons]
    rcases examineKey_cases s requester k with ⟨d, free, held, eq⟩ | ⟨held, full, eq⟩ | ⟨held, eq⟩ <;> rw [eq]
    · exact .cons_made (ih nodup _) free held fresh
    · exact .cons_drop (ih nodup _) full held
    · exact .cons_none (ih nodup _) held

theorem askedKeys_nodup (origin : Station) (epoch : Epoch) (first : SeqNum) {count : Nat} (few : count ≤ 8) :
    (askedKeys origin epoch first count).Nodup := by
  refine (List.nodup_map_iff_inj_on List.nodup_range).mpr fun i hi j hj eq => ?_
  have := congrArg Key.seq eq
  rw [List.mem_range] at hi hj
  dsimp only at this
  bv_omega

/-- Settles O49: the keys are examined one after another, each for itself. -/
theorem gapreqMakesDuties : Obligations.GapreqMakesDuties := by
  intro requester origin epoch first count s peer positive few takes
  refine ⟨_, congrArg Host.Outcome.next
    (burstEnds_peer takes (f := .gapreq requester origin epoch first count) (wf_count positive few) peer), ?_⟩
  have distributed : (s.received (Frame.gapreq requester origin epoch first count).sender).distribute
      (.gapreq requester origin epoch first count) =
      ((s.received requester).hearGapreq origin epoch first count).answerGapreq requester origin epoch first count := rfl
  rw [distributed]
  have only := hearGapreq_only (s.received requester) origin epoch first count
  have heard := received_ctx s requester requester
  rw [if_pos rfl] at heard
  have contexts : ((s.received requester).hearGapreq origin epoch first count).ctx requester = (s.received requester).ctx requester :=
    State.ctx_congr (only .contexts (by decide)) requester
  have counters : ((s.received requester).hearGapreq origin epoch first count).counters =
      { s.counters with rxGood := BitVec.ofNat 16 (min (s.counters.rxGood.toNat + 1) 65535) } := only .counters (by decide)
  have store : ((s.received requester).hearGapreq origin epoch first count).store = s.store := only .store (by decide)
  have duties : ((s.received requester).hearGapreq origin epoch first count).duties = s.duties := only .duties (by decide)
  have station : ((s.received requester).hearGapreq origin epoch first count).station = s.station := only .station (by decide)
  generalize (s.received requester).hearGapreq origin epoch first count = v at contexts counters store duties station ⊢
  have duty (d : Fin 16) : v.duty d = s.duty d := State.duty_congr (congrArg _ duties) d
  have onlyAnswer := answerGapreq_only v requester origin epoch first count
  have good : (v.answerGapreq requester origin epoch first count).counters.rxGood = v.counters.rxGood := by
    have examine (l : List Key) (v : State) :
        (l.foldl (fun s k => s.examineKey requester k) v).counters.rxGood = v.counters.rxGood := by
      induction l generalizing v with
      | nil => rfl
      | cons k l ih =>
        rw [List.foldl_cons, ih]
        rcases examineKey_cases v requester k with ⟨d, -, -, eq⟩ | ⟨-, -, eq⟩ | ⟨-, eq⟩ <;> rw [eq]
        · exact congrArg Counters.rxGood (withReplayDuty_only v requester d k .counters (by decide))
        · rfl
    unfold State.answerGapreq
    split
    · exact examine _ v
    · rfl
  refine ⟨?_, ?_, ?_, fun inactive => ?_, fun active => ?_⟩
  · rw [good, counters]
  · have ctx : (v.answerGapreq requester origin epoch first count).ctx requester = v.ctx requester :=
      State.ctx_congr (onlyAnswer .contexts (by decide)) requester
    rw [ctx, contexts, heard]
  · intro d x there
    unfold State.answerGapreq
    split
    · exact (answers_fold requester _ (askedKeys_nodup origin epoch first few) v).stand d x ((duty d).trans there)
    · exact (duty d).trans there
  · have off : v.isActive = false := isActive_of_ne (by rw [station]; exact inactive)
    have none : v.answerGapreq requester origin epoch first count = v := by simp [State.answerGapreq, off]
    rw [none, duties, store, counters]
    exact ⟨rfl, rfl, rfl⟩
  · have on : v.isActive = true := by
      rw [State.isActive, station, active]
      rfl
    have answers := answers_fold requester _ (askedKeys_nodup origin epoch first few) v
    have eq : v.answerGapreq requester origin epoch first count =
        (askedKeys origin epoch first count).foldl (fun s k => s.examineKey requester k) v := if_pos on
    rw [← eq] at answers
    generalize v.answerGapreq requester origin epoch first count = t at answers ⊢
    have delay {k : Key} (mine : k.origin = origin) : v.replayDelay k requester =
        if origin = s.stn then 0 else s.setup.repairBase + (s.stn - requester).toNat := by
      rw [replayDelay_congr station, State.replayDelay, mine]
      rfl
    have askedMem (i : Nat) (lt : i < count) : ({ origin := origin, epoch := epoch, seq := first + BitVec.ofNat 16 i } : Key) ∈
        askedKeys origin epoch first count := List.mem_map.mpr ⟨i, List.mem_range.mpr lt, rfl⟩
    have made (k : Key) : MadeDuty v t k ↔ ∃ d : Fin 16, s.duty d = none ∧ (t.duty d).map (fun x => x.key) = some k := by
      simp only [MadeDuty, duty]
    refine ⟨fun d x free there => ?_, fun i lt held => ?_, ?_⟩
    · obtain ⟨mem, held, pinned, is, joins⟩ := answers.made d x ((duty d).trans free) there
      obtain ⟨i, lt, key⟩ := List.mem_map.mp mem
      have mine : x.key.origin = origin := by rw [← key]
      rw [delay mine] at is joins
      refine ⟨⟨i, List.mem_range.mp lt, key.symm⟩, store ▸ held, pinned, ?_, ?_⟩
      · exact (congrArg Duty.count is).trans (madeDuty_count _ _)
      · by_cases atOnce : origin = s.stn ∨ s.setup.repairBase + (s.stn - requester).toNat = 0
        · have zero : (if origin = s.stn then 0 else s.setup.repairBase + (s.stn - requester).toNat) = 0 := by
            rcases atOnce with own | zero
            · exact if_pos own
            · rw [zero, ite_self]
          rw [zero, madeDuty, if_pos rfl] at is
          rw [if_pos atOnce]
          exact ⟨by rw [is], by rw [is], joins zero⟩
        · obtain ⟨peer, later⟩ := not_or.mp atOnce
          rw [if_neg peer, madeDuty, if_neg later] at is
          rw [if_neg atOnce]
          exact ⟨by rw [is], by rw [is]⟩
    · rcases answers.asked _ (askedMem i lt) (store ▸ held) with new | full
      · obtain ⟨d, free, key⟩ := (made _).mp new
        obtain ⟨x, there, key⟩ := Option.map_eq_some_iff.mp key
        exact .inl ⟨d, x, free, there, key⟩
      · exact .inr full
    · have drops := answers.drops (fun k => decide (∃ d : Fin 16, s.duty d = none ∧ (t.duty d).map (fun x => x.key) = some k))
        fun k => by rw [decide_eq_true_eq, made]
      rw [drops, counters, store, askedKeys, List.countP_map]
      rfl

end Sys2Proof.Machine
end

section
/-! A DATA or REPLAY of a peer origin at its context (O45). -/

open Sys2Proof

namespace Sys2Proof.Machine

set_option Elab.async false

/-! ### What a frame's insert comes to (R8, R30, R35) -/

theorem insert_answers (st : Store) (stn : Station) (share : Nat) (e : Entry) :
    (∃ x, st.find e.key = some x ∧ st.insert stn share e = (.present x.pins, st)) ∨
      st.find e.key = none ∧ (st.insert stn share e = (.refused, st) ∨ ∃ v st', st.insert stn share e = (.stored v, st')) := by
  have place (free : Nat) (es : List Entry) : placeEntry free es e = (.refused, es) ∨ ∃ v es', placeEntry free es e = (.stored v, es') := by
    rcases placeEntry_cases free es e with ⟨-, h⟩ | ⟨-, v, rest, -, h⟩ | ⟨-, -, h⟩
    · exact .inr ⟨_, _, h⟩
    · exact .inr ⟨_, _, h⟩
    · exact .inl h
  cases found : st.find e.key with
  | some x => exact .inl ⟨x, rfl, insert_present found stn share⟩
  | none =>
    refine .inr ⟨rfl, ?_⟩
    have absent := Store.find_eq_none.mp found
    by_cases own : e.key.origin = stn
    · rw [insert_absent_own absent own]
      rcases place (st.ownFree share) st.own with h | ⟨v, es', h⟩ <;> rw [h]
      · exact .inl rfl
      · exact .inr ⟨_, _, rfl⟩
    · rw [insert_absent_peer absent own]
      rcases place (st.peerFree share) st.peer with h | ⟨v, es', h⟩ <;> rw [h]
      · exact .inl rfl
      · exact .inr ⟨_, _, rfl⟩

theorem insertFrame_claim (s : State) (o : Station) (e : Entry) :
    (s.insertFrame o e).answer = (s.store.insert s.stn s.setup.ownShare e).1 ∧
      (s.insertFrame o e).after.store = (s.store.insert s.stn s.setup.ownShare e).2 ∧
      (s.insertFrame o e).after.counters = s.counters ∧ (s.insertFrame o e).after.events = s.events := by
  have reports (u : State) : (u.reportFrom s.peerClaimable).store = u.store ∧
      (u.reportFrom s.peerClaimable).counters = u.counters ∧ (u.reportFrom s.peerClaimable).events = u.events :=
    have only := reportFrom_only u s.peerClaimable
    ⟨only .store (by decide), only .counters (by decide), only .events (by decide)⟩
  have only := insertFrame_only s o e
  refine ⟨?_, ?_, only .counters (by decide), only .events (by decide)⟩
  · unfold State.insertFrame
    dsimp only
    split <;> rfl
  · unfold State.insertFrame
    dsimp only
    split
    · rename_i held answer
      rcases insert_answers s.store s.stn s.setup.ownShare e with ⟨x, -, h⟩ | ⟨-, h | ⟨v, st', h⟩⟩ <;> rw [h] at answer ⊢
      · cases answer
    · rename_i answer
      rcases insert_answers s.store s.stn s.setup.ownShare e with ⟨x, -, h⟩ | ⟨-, h | ⟨v, st', h⟩⟩ <;> rw [h] at answer ⊢
      · cases answer
    · exact (reports _).1
    · refine (reports _).1.trans ?_
      unfold State.tellEviction
      split
      · exact settle_store _ _ _ _
      · rfl

theorem afterDueInsert_eq (s : State) (a : InsertAnswer) : s.afterDueInsert a = if a = .refused then s.refusedDue else s := by
  cases a <;> simp [State.afterDueInsert]

/-- The claim for `e` refused though it is made with DUE (R35). -/
def State.refusesDue (s : State) (e : Entry) : Prop :=
  (s.store.insert s.stn s.setup.ownShare e).1 = .refused ∧ e.pins.due = true

/-- Store, counters and events when the insert claim for `e` is made at `s` and no other. -/
structure Inserts (s t : State) (e : Entry) : Prop where
  store : t.store = (s.store.insert s.stn s.setup.ownShare e).2
  rxGood : t.counters.rxGood = s.counters.rxGood
  refused : s.refusesDue e → t.counters.rxNoroom = BitVec.ofNat 16 (min (s.counters.rxNoroom.toNat + 1) 65535) ∧
    t.events = (s.raise .retentionFull).events
  taken : ¬ s.refusesDue e → t.counters.rxNoroom = s.counters.rxNoroom ∧ t.events = s.events

theorem Inserts.then_only {bs : List Block} {s t u : State} {e : Entry} (h : Inserts s t e) (only : Only bs t u)
    (out : ∀ b ∈ bs, b ∉ [Block.store, .counters, .events] := by decide) : Inserts s u e := by
  have store : u.store = t.store := only .store fun mem => out _ mem (by decide)
  have counters : u.counters = t.counters := only .counters fun mem => out _ mem (by decide)
  have events : u.events = t.events := only .events fun mem => out _ mem (by decide)
  exact ⟨store.trans h.store, by rw [counters, h.rxGood], by rw [counters, events]; exact h.refused,
    by rw [counters, events]; exact h.taken⟩

/-- The insert with DUE and what follows it (R8, R35). -/
theorem Inserts.due (s : State) (o : Station) {e : Entry} (due : e.pins.due = true) :
    Inserts s ((s.insertFrame o e).after.afterDueInsert (s.insertFrame o e).answer) e := by
  obtain ⟨answer, store, counters, events⟩ := insertFrame_claim s o e
  rw [afterDueInsert_eq, answer]
  by_cases full : (s.store.insert s.stn s.setup.ownShare e).1 = .refused
  · rw [if_pos full]
    refine ⟨store, ?_, fun _ => ⟨?_, ?_⟩, fun taken => absurd ⟨full, due⟩ taken⟩
    · show (s.insertFrame o e).after.counters.rxGood = _
      rw [counters]
    · show BitVec.ofNat 16 (min ((s.insertFrame o e).after.counters.rxNoroom.toNat + 1) 65535) = _
      rw [counters]
    · show ((s.insertFrame o e).after.raise .retentionFull).events = _
      simp only [State.raise, State.withEvents_events, events]
  · rw [if_neg full]
    exact ⟨store, congrArg _ counters, fun refused => absurd refused.1 full, fun _ => ⟨congrArg _ counters, events⟩⟩

/-- The insert without DUE (R32). -/
theorem Inserts.plain (s : State) (o : Station) {e : Entry} (plain : e.pins.due = false) :
    Inserts s (s.insertFrame o e).after e := by
  obtain ⟨-, store, counters, events⟩ := insertFrame_claim s o e
  exact ⟨store, congrArg _ counters, fun refused => (by rw [refused.2] at plain; cases plain),
    fun _ => ⟨congrArg _ counters, events⟩⟩

/-- An insert where the contexts alone have been changed first. -/
theorem Inserts.at_setCtx {s t : State} {o : Station} {c : Context} {e : Entry} (h : Inserts (s.setCtx o c) t e) : Inserts s t e :=
  ⟨h.store, h.rxGood, h.refused, h.taken⟩

/-! ### The cases of Table 2.4 (R29 to R34, R37, R38) -/

theorem syncFrame_takes (s : State) (m : Message) : Inserts s (s.syncFrame m) (m.entry Pins.onlyDue) ∧
    Settles (s.setCtx m.key.origin { s.ctx m.key.origin with
      state := .steady, epoch := m.key.epoch, nextDue := m.key.seq, horizon := m.key.seq, lossFloor := m.key.seq })
      (s.syncFrame m) := by
  unfold State.syncFrame
  dsimp only
  refine ⟨((Inserts.due _ _ rfl).then_only (settle_only _ _ _ _)).at_setCtx, ?_⟩
  exact ((Settles.insertFrame _ _ _).trans (.afterDueInsert _ _)).trans (.settle _ _ _ _)

theorem behindFrame_takes (s : State) (m : Message) : Inserts s (s.behindFrame m) (m.entry Pins.none) ∧
    Settles s (s.behindFrame m) := by
  unfold State.behindFrame
  dsimp only
  split
  · exact ⟨(Inserts.plain _ _ rfl).then_only (settle_only _ _ _ _), (Settles.insertFrame _ _ _).trans (.settle _ _ _ _)⟩
  · exact ⟨.plain _ _ rfl, .insertFrame _ _ _⟩

theorem isPresent_iff (s : State) (o : Station) (e : Entry) :
    (s.insertFrame o e).answer.isPresent = true ↔ ∃ x ∈ s.store.own ++ s.store.peer, x.key = e.key := by
  rw [(insertFrame_claim s o e).1]
  rcases insert_answers s.store s.stn s.setup.ownShare e with ⟨x, found, h⟩ | ⟨absent, h⟩
  · obtain ⟨mem, key⟩ := Store.find_eq_some found
    rw [h]
    exact iff_of_true rfl ⟨x, mem, key⟩
  · refine iff_of_false (fun present => ?_) fun ⟨x, mem, key⟩ => Store.find_eq_none.mp absent x mem key
    rcases h with h | ⟨v, st', h⟩ <;> rw [h] at present <;> cases present

/-- The in-window case of an absent key (R33). -/
theorem windowFrame_takes {s : State} {m : Message} (absent : ∀ x ∈ s.store.own ++ s.store.peer, x.key ≠ m.key) :
    Inserts s (s.windowFrame m) (m.entry Pins.onlyDue) ∧ ∃ u, Settles s u ∧
      Settles (u.setCtx m.key.origin { u.ctx m.key.origin with horizon := later (u.ctx m.key.origin).horizon m.key.seq })
        (s.windowFrame m) := by
  have new : ¬ (s.insertFrame m.key.origin (m.entry Pins.onlyDue)).answer.isPresent = true := fun present =>
    have ⟨x, mem, key⟩ := (isPresent_iff _ _ _).mp present
    absent x mem key
  unfold State.windowFrame
  dsimp only
  rw [if_neg new]
  refine ⟨((Inserts.due s m.key.origin rfl).then_only (setCtx_only _ _ _)).then_only (settle_only _ _ _ _), _,
    (Settles.insertFrame s _ _).trans (.afterDueInsert _ _), .settle _ _ _ _⟩

/-- The far-ahead case of an absent key (R34). -/
theorem farFrame_takes {s : State} {m : Message} (absent : ∀ x ∈ s.store.own ++ s.store.peer, x.key ≠ m.key) :
    Inserts s (s.farFrame m) (m.entry Pins.onlyDue) ∧
      Settles (s.setCtx m.key.origin { s.ctx m.key.origin with lossFloor := m.key.seq - 63, horizon := m.key.seq })
        (s.farFrame m) := by
  have new : ¬ s.store.present m.key = true := fun present =>
    have ⟨x, mem, key⟩ := Store.present_iff.mp present
    absent x mem key
  unfold State.farFrame
  dsimp only
  rw [if_neg new]
  refine ⟨((Inserts.due _ _ rfl).then_only (settle_only _ _ _ _)).at_setCtx, ?_⟩
  exact ((Settles.insertFrame _ _ _).trans (.afterDueInsert _ _)).trans (.settle _ _ _ _)

/-- Next-due and floor that a frame of a newer epoch leaves (R37, R38). -/
def restartByFrame (n : SeqNum) : SeqNum × SeqNum := if n.toNat ≤ 32767 then (0, largerOfZero n 63) else (n, n)

/-- The restart that a frame of a newer epoch begins. -/
def State.frameRestarts (s : State) (m : Message) : State :=
  s.beginRestart m.key.origin m.key.epoch (restartByFrame m.key.seq).1 m.key.seq (restartByFrame m.key.seq).2

theorem restartFrame_eq (s : State) (m : Message) : s.restartFrame m =
    (((s.frameRestarts m).insertFrame m.key.origin (m.entry Pins.onlyDue)).after.afterDueInsert
      ((s.frameRestarts m).insertFrame m.key.origin (m.entry Pins.onlyDue)).answer).endRestart m.key.origin := by
  have begins : (if m.key.seq.toNat ≤ 32767 then
        s.beginRestart m.key.origin m.key.epoch 0 m.key.seq (largerOfZero m.key.seq 63)
      else s.beginRestart m.key.origin m.key.epoch m.key.seq m.key.seq m.key.seq) = s.frameRestarts m := by
    unfold State.frameRestarts restartByFrame
    split <;> rfl
  unfold State.restartFrame
  dsimp only
  rw [begins]

theorem restartFrame_takes (s : State) (m : Message) :
    Inserts (s.frameRestarts m) (s.restartFrame m) (m.entry Pins.onlyDue) ∧ Settles (s.frameRestarts m) (s.restartFrame m) := by
  rw [restartFrame_eq]
  exact ⟨(Inserts.due _ _ rfl).then_only (endRestart_only _ _),
    ((Settles.insertFrame _ _ _).trans (.afterDueInsert _ _)).trans (.endRestart _ _)⟩

theorem frameRestarts_only (s : State) (m : Message) : Only [.store, .pool, .contexts, .sched] s (s.frameRestarts m) :=
  beginRestart_only _ _ _ _ _ _

/-! ### Whatever the case -/

theorem FrameLeaves.refl (s : State) (o : Station) : FrameLeaves s s o := ⟨fun _ => ⟨rfl, rfl, rfl⟩, fun _ _ => rfl⟩

theorem FrameLeaves.setCtx_then {s t u : State} {o : Station} {c : Context} (h : Settles s t)
    (k : Settles (t.setCtx o c) u) (heard : c.heardSinceReset = (t.ctx o).heardSinceReset) (silent : c.silent = (t.ctx o).silent)
    (timer : c.silenceTimer = (t.ctx o).silenceTimer) : FrameLeaves s u o := by
  have first := (FrameLeaves.refl s o).settles h
  have second := (FrameLeaves.setCtx heard silent timer).settles k
  exact ⟨fun p => ⟨(second.heard p).1.trans (first.heard p).1, (second.heard p).2.1.trans (first.heard p).2.1,
    (second.heard p).2.2.trans (first.heard p).2.2⟩, fun p other => (second.others p other).trans (first.others p other)⟩

/-- A frame at the table counts no good frame, and changes the place of its origin alone. -/
theorem classify_leaves (s : State) (m : Message) :
    (s.classify m).counters.rxGood = s.counters.rxGood ∧ FrameLeaves s (s.classify m) m.key.origin := by
  unfold State.classify
  dsimp only
  split
  · exact ⟨rfl, .refl _ _⟩
  · obtain ⟨inserts, settles⟩ := syncFrame_takes s m
    exact ⟨inserts.rxGood, .setCtx_then (.refl s) settles rfl rfl rfl⟩
  · split
    · obtain ⟨inserts, settles⟩ := restartFrame_takes s m
      refine ⟨inserts.rxGood.trans (congrArg Counters.rxGood (frameRestarts_only s m .counters (by decide))), ?_⟩
      exact (FrameLeaves.beginRestart _ _ _ _ _ _).settles settles
    · split
      · exact ⟨rfl, fun _ => ⟨rfl, rfl, rfl⟩, fun _ _ => rfl⟩
      · split
        · obtain ⟨inserts, settles⟩ := behindFrame_takes s m
          exact ⟨inserts.rxGood, (FrameLeaves.refl _ _).settles settles⟩
        · split
          · by_cases held : ∃ x ∈ s.store.own ++ s.store.peer, x.key = m.key
            · have same : s.windowFrame m = s := if_pos ((isPresent_iff _ _ _).mpr held)
              rw [same]
              exact ⟨rfl, .refl _ _⟩
            · obtain ⟨inserts, u, first, settles⟩ := windowFrame_takes fun x mem key => held ⟨x, mem, key⟩
              exact ⟨inserts.rxGood, .setCtx_then first settles rfl rfl rfl⟩
          · by_cases held : ∃ x ∈ s.store.own ++ s.store.peer, x.key = m.key
            · have same : s.farFrame m = s := if_pos (Store.present_iff.mpr held)
              rw [same]
              exact ⟨rfl, .refl _ _⟩
            · obtain ⟨inserts, settles⟩ := farFrame_takes fun x mem key => held ⟨x, mem, key⟩
              exact ⟨inserts.rxGood, .setCtx_then (.refl s) settles rfl rfl rfl⟩

/-- Frames of others leave the messages of the own share. -/
theorem Heard.ownShare {s t : State} (h : Heard s t) :
    t.store.own.map (fun e => (e.key, e.payload)) = s.store.own.map (fun e => (e.key, e.payload)) := by
  induction h with
  | refl => rfl
  | trans _ _ one two => exact two.trans one
  | other keeps => rw [keeps.store (by decide)]
  | insert e peer pins size keeps still store =>
    rw [store]
    rcases insert_peer peer with same | ⟨-, kept, eq, -⟩
    · rw [same]
    · rw [eq]
  | withhold o epoch peer keeps still store =>
    rw [store]
    exact (PinsOnly.restartRelease _ _ _).own

/-! ### The store after the key's duties are cancelled -/

/-- What the clear-TX claims keep, the cancelling of a key keeps. -/
theorem cancelKey_store {P : Store → Prop} {k : Key} (clears : ∀ st, P st → P (st.clearTx k).2) {s : State} (h : P s.store) :
    P (s.cancelKey k).store := by
  have one (s : State) (d : Fin 16) (h : P s.store) : P (s.cancelDuty k d).store := by
    rw [cancelDuty_eq]
    split
    · rw [State.releaseDuty, State.clearTx, applyStore_store, emptyDuty_only s d .store (by decide)]
      exact clears _ h
    · exact h
  unfold State.cancelKey
  generalize allDuties = l
  induction l generalizing s with
  | nil => exact h
  | cons d l ih => exact ih (one s d h)

theorem cancelKey_found {s : State} {k : Key} {e : Entry} (untx : e.pins.tx = false) (h : s.store.find k = some e) :
    (s.cancelKey k).store.find k = some e := by
  refine cancelKey_store (P := fun st => st.find k = some e) (fun st found => ?_) h
  have same : e.untx = e := by
    obtain ⟨key, payload, pins⟩ := e
    cases pins
    cases untx
    rfl
  rw [find_clearTx, if_pos rfl, found, Option.map_some, same]

theorem cancelKey_absent {s : State} {k : Key} (h : s.store.find k = none) : (s.cancelKey k).store.find k = none := by
  refine cancelKey_store (P := fun st => st.find k = none) (fun st found => ?_) h
  rw [find_clearTx, if_pos rfl, found]
  rfl

theorem cancelKey_pinsOnly (s : State) (k : Key) : PinsOnly s.store (s.cancelKey k).store :=
  cancelKey_store (P := PinsOnly s.store) (fun st h =>
    have one := PinsOnly.clearTx st k
    ⟨one.own.trans h.own, one.peer.trans h.peer, one.reserved.trans h.reserved⟩) (.refl _)

/-- No entry of the origin and epoch carries DUE. -/
def Store.withheld (st : Store) (o : Station) (epoch : Epoch) : Prop :=
  ∀ e ∈ st.own ++ st.peer, e.key.origin = o → e.key.epoch = epoch → e.pins.due = false

theorem Store.withheld.clearTx {st : Store} {o : Station} {epoch : Epoch} (h : st.withheld o epoch) (k : Key) :
    (st.clearTx k).2.withheld o epoch := by
  rcases st.clearPin_cases k (fun p => p.tx) (fun p => { p with tx := false }) with eq | eq | eq
  · rwa [Store.clearTx, eq]
  · rwa [Store.clearTx, eq]
  · intro e mem
    have mem' : e ∈ (st.mapPins k fun p => { p with tx := false }).own ++ (st.mapPins k fun p => { p with tx := false }).peer := by
      rwa [Store.clearTx, eq] at mem
    rw [Store.mapPins, Store.mapEntries_all] at mem'
    obtain ⟨x, there, rfl⟩ := List.mem_map.mp mem'
    split
    · exact h x there
    · exact h x there

theorem restartRelease_withheld (st : Store) (o : Station) (epoch : Epoch) : (st.restartRelease o epoch).withheld o epoch := by
  intro e mem origin era
  rw [Store.restartRelease, Store.mapEntries_all] at mem
  obtain ⟨x, there, rfl⟩ := List.mem_map.mp mem
  split at origin
  · rename_i mine
    rw [if_pos mine]
  · rename_i other
    rw [if_neg other] at era
    exact absurd ⟨origin, era⟩ other

theorem Store.withheld.insert {st : Store} {o : Station} {epoch : Epoch} (h : st.withheld o epoch) {stn : Station} {share : Nat}
    {e : Entry} (peer : e.key.origin ≠ stn) (other : e.key.epoch ≠ epoch) : (st.insert stn share e).2.withheld o epoch := by
  rcases insert_peer_kept peer (st := st) (share := share) with same | ⟨-, kept, eq, sub, -⟩
  · rw [same]
    exact h
  · rw [eq]
    intro x mem origin era
    rcases List.mem_append.mp mem with own | new
    · exact h x (List.mem_append.mpr (.inl own)) origin era
    · rcases List.mem_append.mp new with old | new
      · exact h x (List.mem_append.mpr (.inr (sub.subset old))) origin era
      · rw [List.mem_singleton.mp new] at era
        exact absurd era other

/-! ### What is held after the insert of an absent key -/

theorem insert_room {st : Store} {e : Entry} (absent : ∀ x ∈ st.own ++ st.peer, x.key ≠ e.key) {stn : Station}
    (peer : e.key.origin ≠ stn) {share : Nat} (room : 0 < st.peerClaimable share) :
    (st.insert stn share e).1 ≠ .refused ∧ (st.insert stn share e).2.find e.key = some e := by
  have place : (placeEntry (st.peerFree share) st.peer e).1 ≠ .refused ∧
      ∃ kept, kept.Sublist st.peer ∧ (placeEntry (st.peerFree share) st.peer e).2 = kept ++ [e] := by
    rcases placeEntry_cases (st.peerFree share) st.peer e with ⟨-, h⟩ | ⟨-, v, rest, evict, h⟩ | ⟨full, pinned, h⟩
    · rw [h]
      exact ⟨nofun, _, .refl _, rfl⟩
    · rw [h]
      exact ⟨nofun, _, evictOldest_sublist evict, rfl⟩
    · have := pinned
      unfold Store.peerClaimable at room
      omega
  obtain ⟨answer, kept, sub, placed⟩ := place
  rw [insert_absent_peer absent peer]
  refine ⟨answer, ?_⟩
  have before : (st.own ++ kept).find? (fun x => decide (x.key = e.key)) = none := by
    refine List.find?_eq_none.mpr fun x mem => ?_
    have : x ∈ st.own ++ st.peer := List.mem_append.mpr ((List.mem_append.mp mem).imp_right fun m => sub.subset m)
    simpa using absent x this
  dsimp only
  rw [placed, Store.find]
  show (st.own ++ (kept ++ [e])).find? _ = some e
  rw [← List.append_assoc, List.find?_append, before]
  simp

theorem insert_full {st : Store} {e : Entry} (absent : ∀ x ∈ st.own ++ st.peer, x.key ≠ e.key) {stn : Station}
    (peer : e.key.origin ≠ stn) {share : Nat} (full : st.peerClaimable share = 0) : st.insert stn share e = (.refused, st) := by
  rw [insert_absent_peer absent peer, placeEntry_refused full]

/-- With room the absent key of a frame is held, and nothing counted; without, it is not, and a refused DUE is told (R30, R35). -/
theorem Inserts.outcome {s t : State} {k : Key} {payload : List Byte} {pins : Pins}
    (h : Inserts s t { key := k, payload := payload, pins := pins }) (untx : pins.tx = false)
    (absent : ∀ x ∈ s.store.own ++ s.store.peer, x.key ≠ k) (peer : k.origin ≠ s.stn) :
    (0 < s.peerClaimable → (t.cancelKey k).store.find k = some { key := k, payload := payload, pins := pins } ∧
      t.counters.rxNoroom = s.counters.rxNoroom ∧ t.events = s.events) ∧
    (s.peerClaimable = 0 → (t.cancelKey k).store.find k = none ∧
      (pins.due = true → t.counters.rxNoroom = BitVec.ofNat 16 (min (s.counters.rxNoroom.toNat + 1) 65535) ∧
        t.events = (s.raise .retentionFull).events) ∧
      (pins.due = false → t.counters.rxNoroom = s.counters.rxNoroom ∧ t.events = s.events)) := by
  refine ⟨fun room => ?_, fun full => ?_⟩
  · obtain ⟨stored, found⟩ := insert_room (e := { key := k, payload := payload, pins := pins }) absent peer room
    refine ⟨cancelKey_found untx ?_, h.taken fun refused => stored refused.1⟩
    rw [h.store]
    exact found
  · have refuses := insert_full (e := { key := k, payload := payload, pins := pins }) absent peer full
    refine ⟨cancelKey_absent ?_, fun due => h.refused ⟨congrArg Prod.fst refuses, due⟩,
      fun plain => h.taken fun refused => ?_⟩
    · rw [h.store, refuses]
      exact Store.find_eq_none.mpr absent
    · cases plain.symm.trans refused.2

/-! ### The frame at the table, up to the trackers' timers -/

section Table

variable {s w : State} {m : Message} (later' : Only [.pool] (s.classify m) w)

theorem Settles.then_pool {s t u : State} (h : Settles s t) (only : Only [.pool] t u) : Settles s u :=
  h.trans (.of_contexts (only .contexts (by decide)))

include later'

theorem classified_unsynced (unsynced : (s.ctx m.key.origin).state = .unsynced) :
    Inserts s w (m.entry Pins.onlyDue) ∧ (w.ctx m.key.origin).place = (m.key.epoch, m.key.seq, m.key.seq, m.key.seq) := by
  have eq : s.classify m = s.syncFrame m := by simp only [State.classify, unsynced]
  rw [eq] at later'
  obtain ⟨inserts, settles⟩ := syncFrame_takes s m
  refine ⟨inserts.then_only later', ?_⟩
  rw [(settles.then_pool later').place, State.ctx_setCtx, if_pos rfl]
  rfl

theorem classified_newer (synced : (s.ctx m.key.origin).isSynced = true)
    (new : newer m.key.epoch (s.ctx m.key.origin).epoch = true) :
    Inserts (s.frameRestarts m) w (m.entry Pins.onlyDue) ∧
      w.ctx m.key.origin = { (s.ctx m.key.origin).restarted m.key.epoch (restartByFrame m.key.seq).1 m.key.seq
          (restartByFrame m.key.seq).2 with
        state := (w.ctx m.key.origin).state, trackerHeld := (w.ctx m.key.origin).trackerHeld } := by
  rw [classify_synced synced, if_pos new] at later'
  obtain ⟨inserts, settles⟩ := restartFrame_takes s m
  refine ⟨inserts.then_only later', ?_⟩
  have ctx := (settles.then_pool later').ctx m.key.origin
  rwa [State.frameRestarts, beginRestart_ctx, if_pos rfl] at ctx

section SameEpoch

variable (synced : (s.ctx m.key.origin).isSynced = true) (mine : m.key.epoch = (s.ctx m.key.origin).epoch)
include synced mine

theorem classified_mine : Only [.pool]
    (if 32768 ≤ (m.key.seq - (s.ctx m.key.origin).nextDue).toNat then s.behindFrame m
      else if (m.key.seq - (s.ctx m.key.origin).nextDue).toNat ≤
        ((s.ctx m.key.origin).base - (s.ctx m.key.origin).nextDue).toNat + 63 then s.windowFrame m
      else s.farFrame m) w := by
  have notNewer : ¬ newer m.key.epoch (s.ctx m.key.origin).epoch = true := by rw [mine, newer_self]; exact Bool.false_ne_true
  rwa [classify_synced synced, if_neg notNewer, if_neg (not_not.mpr mine)] at later'

theorem classified_behind (behind : 32768 ≤ (m.key.seq - (s.ctx m.key.origin).nextDue).toNat) :
    Inserts s w (m.entry Pins.none) ∧ Settles s w := by
  have only := classified_mine later' synced mine
  rw [if_pos behind] at only
  obtain ⟨inserts, settles⟩ := behindFrame_takes s m
  exact ⟨inserts.then_only only, settles.then_pool only⟩

theorem classified_ahead (ahead : (m.key.seq - (s.ctx m.key.origin).nextDue).toNat < 32768)
    (absent : ∀ x ∈ s.store.own ++ s.store.peer, x.key ≠ m.key) : Inserts s w (m.entry Pins.onlyDue) ∧
      (w.ctx m.key.origin).place =
        if (m.key.seq - (s.ctx m.key.origin).nextDue).toNat ≤
            ((s.ctx m.key.origin).base - (s.ctx m.key.origin).nextDue).toNat + 63 then
          ((s.ctx m.key.origin).epoch, (s.ctx m.key.origin).nextDue, later (s.ctx m.key.origin).horizon m.key.seq,
            (s.ctx m.key.origin).lossFloor)
        else ((s.ctx m.key.origin).epoch, (s.ctx m.key.origin).nextDue, m.key.seq, m.key.seq - 63) := by
  have only := classified_mine later' synced mine
  rw [if_neg (Nat.not_le.mpr ahead)] at only
  by_cases near : (m.key.seq - (s.ctx m.key.origin).nextDue).toNat ≤
      ((s.ctx m.key.origin).base - (s.ctx m.key.origin).nextDue).toNat + 63
  · rw [if_pos near] at only
    obtain ⟨inserts, u, first, settles⟩ := windowFrame_takes absent
    refine ⟨inserts.then_only only, ?_⟩
    rw [if_pos near, (settles.then_pool only).place, State.ctx_setCtx, if_pos rfl, first.ctx m.key.origin]
    rfl
  · rw [if_neg near] at only
    obtain ⟨inserts, settles⟩ := farFrame_takes absent
    refine ⟨inserts.then_only only, ?_⟩
    rw [if_neg near, (settles.then_pool only).place, State.ctx_setCtx, if_pos rfl]
    rfl

end SameEpoch

end Table

theorem beforeCancel_peer {s : State} {k : Key} (peer : k.origin ≠ s.stn) (c : Instr) (payload : List Byte) :
    Only [.pool] (s.classify { key := k, payload := payload }) (s.beforeCancel c k payload) := by
  unfold State.beforeCancel
  split
  · rw [if_neg peer]
    exact hearReplay_only _ _
  · exact .refl _ _

/-- A sender heard leaves the restart fields. -/
theorem received_restart (s : State) (sender o : Station) :
    ((s.received sender).ctx o).restartPending = (s.ctx o).restartPending ∧
      ((s.received sender).ctx o).restartOldEpoch = (s.ctx o).restartOldEpoch ∧
      ((s.received sender).ctx o).restartCount = (s.ctx o).restartCount := by
  rw [received_ctx]
  split
  · rename_i eq
    rw [eq]
    exact ⟨rfl, rfl, rfl⟩
  · exact ⟨rfl, rfl, rfl⟩

/-- Settles O45. -/
theorem peerFrameIsClassified : Obligations.PeerFrameIsClassified := by
  intro c sender k payload s row positive few origin peer takes
  refine ⟨_, exec_heardMessage row positive few peer takes, ?_⟩
  have received := received_only s sender
  have heard := received_ctx s sender sender
  rw [if_pos rfl] at heard
  have after := beforeCancel_peer (s := s.received sender) (k := k) origin c payload
  have classified := classify_only (s.received sender) { key := k, payload := payload }
  obtain ⟨good, leaves⟩ := classify_leaves (s.received sender) { key := k, payload := payload }
  have message : Message.FromPeer { key := k, payload := payload } (s.received sender) := ⟨origin, positive, few⟩
  have ownShare := (classify_heard message).ownShare
  obtain ⟨place, state, held⟩ := received_place s sender k.origin
  obtain ⟨pending, oldEpoch, count⟩ := received_restart s sender k.origin
  have epochEq : ((s.received sender).ctx k.origin).epoch = (s.ctx k.origin).epoch := congrArg Prod.fst place
  have dueEq : ((s.received sender).ctx k.origin).nextDue = (s.ctx k.origin).nextDue := congrArg (·.2.1) place
  have horizonEq : ((s.received sender).ctx k.origin).horizon = (s.ctx k.origin).horizon := congrArg (·.2.2.1) place
  have floorEq : ((s.received sender).ctx k.origin).lossFloor = (s.ctx k.origin).lossFloor := congrArg (·.2.2.2) place
  have baseEq : ((s.received sender).ctx k.origin).base = (s.ctx k.origin).base := by rw [Context.base, dueEq, floorEq]; rfl
  have store : (s.received sender).store = s.store := rfl
  have noroom : (s.received sender).counters.rxNoroom = s.counters.rxNoroom := rfl
  have goodCount : (s.received sender).counters.rxGood = BitVec.ofNat 16 (min (s.counters.rxGood.toNat + 1) 65535) := rfl
  have restarts := frameRestarts_only (s.received sender) { key := k, payload := payload }
  have restarted : ((s.received sender).frameRestarts { key := k, payload := payload }).store =
      s.store.restartRelease k.origin (s.ctx k.origin).epoch :=
    (beginRestart_store _ _ _ _ _ _).trans (congrArg _ epochEq)
  have restartedStation : ((s.received sender).frameRestarts { key := k, payload := payload }).station = s.station :=
    restarts .station (by decide)
  have restartedPeer : k.origin ≠ ((s.received sender).frameRestarts { key := k, payload := payload }).stn := by
    rw [State.stn, restartedStation]
    exact origin
  have restartedClaimable : ((s.received sender).frameRestarts { key := k, payload := payload }).peerClaimable =
      (s.store.restartRelease k.origin (s.ctx k.origin).epoch).peerClaimable s.setup.ownShare := by
    rw [State.peerClaimable, restarted, State.setup, restartedStation]
    rfl
  have restartedNoroom : ((s.received sender).frameRestarts { key := k, payload := payload }).counters.rxNoroom =
      s.counters.rxNoroom := (congrArg Counters.rxNoroom (restarts .counters (by decide))).trans noroom
  have restartedEvents : ((s.received sender).frameRestarts { key := k, payload := payload }).events = s.events :=
    restarts .events (by decide)
  have restartedRaise : (((s.received sender).frameRestarts { key := k, payload := payload }).raise .retentionFull).events =
      (s.raise .retentionFull).events := by simp only [State.raise, State.withEvents_events, restartedEvents]
  have useless := fun synced => classify_useless (s := s.received sender) (m := { key := k, payload := payload }) synced
  have unsyncedCase := fun h => classified_unsynced (s := s.received sender) after h
  have newerCase := fun h => classified_newer (s := s.received sender) after h
  have behindCase := fun h => classified_behind (s := s.received sender) after h
  have aheadCase := fun h => classified_ahead (s := s.received sender) after h
  have whole : Only [.pool, .store, .sched, .duties] ((s.received sender).beforeCancel c k payload)
      (((s.received sender).beforeCancel c k payload).cancelKey k) := (cancelKey_only _ _).mono
  have ends := cancelKey_pinsOnly ((s.received sender).beforeCancel c k payload) k
  generalize (s.received sender).beforeCancel c k payload = w at *
  have only : Only [.store, .pool, .contexts, .sched, .counters, .events, .duties, .trunk] s (w.cancelKey k) :=
    (((received.then classified).then after).then whole).mono
  have ctxEq (o : Station) : (w.cancelKey k).ctx o = w.ctx o := State.ctx_congr (whole .contexts (by decide)) o
  have countersEq : (w.cancelKey k).counters = w.counters := whole .counters (by decide)
  have eventsEq : (w.cancelKey k).events = w.events := whole .events (by decide)
  have places : FrameLeaves (s.received sender) w k.origin :=
    leaves.settles (.of_contexts (after .contexts (by decide)))
  rw [countersEq, eventsEq]
  simp only [ctxEq]
  refine ⟨?_, ?_, ?_, ?_, fun o other => ?_, only .station (by decide), only .submission (by decide), only .delivery (by decide),
    only .control (by decide), only .out (by decide), only .pending (by decide), ?_, fun unsynced => ?_, fun synced => ?_⟩
  · rw [after .counters (by decide), good, goodCount]
  · rw [(places.heard sender).1, heard]
  · rw [(places.heard sender).2.1, heard]
  · rw [(places.heard sender).2.2, heard]
  · rw [places.others o other, (received_place s sender o).1]
  · rw [ends.own, after .store (by decide), ownShare, store]
  · obtain ⟨inserts, place⟩ := unsyncedCase (state.trans unsynced)
    refine ⟨place, fun absent room => (inserts.outcome rfl absent origin).1 room, fun absent full => ?_⟩
    obtain ⟨gone, told, -⟩ := (inserts.outcome rfl absent origin).2 full
    exact ⟨gone, (told rfl).2, (told rfl).1⟩
  · have synced' : ((s.received sender).ctx k.origin).isSynced = true := by
      rw [Context.isSynced, state]
      exact synced
    refine ⟨fun older other => ?_, fun new => ?_, fun mine => ⟨fun idle => ?_, fun ahead absent => ?_, fun absent room => ?_,
      fun absent full => ?_⟩⟩
    · have counts : (s.received sender).classify { key := k, payload := payload } = (s.received sender).count .rxStale := by
        rw [classify_synced synced', if_neg (by rw [epochEq, older]; exact Bool.false_ne_true), if_pos (by rw [epochEq]; exact other)]
      rw [counts] at after
      have stands : w.ctx k.origin = (s.received sender).ctx k.origin := State.ctx_congr (after .contexts (by decide)) k.origin
      refine ⟨?_, ?_, ?_, ?_⟩
      · rw [stands, ← state, ← held]
      · rw [stands, place]
      · rw [after .counters (by decide)]
        rfl
      · rw [ends.peer, after .store (by decide)]
        rfl
    · obtain ⟨inserts, ctx⟩ := newerCase synced' (by rw [epochEq]; exact new)
      obtain ⟨set, fresh, again, -⟩ := countRestart_fields ((s.received sender).ctx k.origin)
      rw [epochEq, dueEq, horizonEq, pending] at fresh
      rw [dueEq, horizonEq, pending, oldEpoch, count] at again
      refine ⟨?_, fun clear => ?_, fun was => ?_, ?_, ?_, ?_⟩
      · rw [ctx]
        exact set
      · rw [ctx]
        exact fresh clear
      · rw [ctx]
        exact again was
      · have released : w.store.withheld k.origin (s.ctx k.origin).epoch := by
          rw [inserts.store, restarted]
          exact (restartRelease_withheld _ _ _).insert restartedPeer fun (eq : k.epoch = _) => by
            rw [eq, newer_self] at new
            cases new
        exact cancelKey_store (P := fun st => st.withheld k.origin (s.ctx k.origin).epoch) (fun _ h => h.clearTx k) released
      · intro absent
        have absent' : ∀ x ∈ ((s.received sender).frameRestarts { key := k, payload := payload }).store.own ++
            ((s.received sender).frameRestarts { key := k, payload := payload }).store.peer, x.key ≠ k := by
          rw [restarted]
          intro x mem
          obtain ⟨y, there, key, -⟩ := (PinsOnly.restartRelease _ _ _).symm.mem mem
          exact key ▸ absent y there
        have outcome := inserts.outcome rfl absent' restartedPeer
        rw [restartedClaimable, restartedNoroom, restartedEvents, restartedRaise] at outcome
        refine ⟨outcome.1, fun full => ?_⟩
        obtain ⟨gone, told, -⟩ := outcome.2 full
        exact ⟨gone, (told rfl).2, (told rfl).1⟩
      · rw [ctx]
        show (k.epoch, (restartByFrame k.seq).1, k.seq, (restartByFrame k.seq).2) = _
        unfold restartByFrame largerOfZero
        split <;> rfl
    · by_cases behind : 32768 ≤ (k.seq - (s.ctx k.origin).nextDue).toNat
      · have ⟨_, settles⟩ := behindCase synced' (mine.trans epochEq.symm) (by rw [dueEq]; exact behind)
        rw [settles.place, place]
      · have held := idle.resolve_left behind
        have stands : w.ctx k.origin = (s.received sender).ctx k.origin := by
          rw [State.ctx_congr (after .contexts (by decide))]
          rcases useless synced' (.inl ⟨mine.trans epochEq.symm, held⟩) with same | same <;> rw [same]
          rfl
        rw [stands, place]
    · have ⟨_, place⟩ := aheadCase synced' (mine.trans epochEq.symm) (by rw [dueEq]; exact ahead) absent
      rw [place]
      simp only [epochEq, dueEq, horizonEq, floorEq, baseEq]
    · by_cases behind : 32768 ≤ (k.seq - (s.ctx k.origin).nextDue).toNat
      · have ⟨inserts, _⟩ := behindCase synced' (mine.trans epochEq.symm) (by rw [dueEq]; exact behind)
        rw [decide_eq_false (Nat.not_lt.mpr behind)]
        exact (inserts.outcome rfl absent origin).1 room
      · have ahead := Nat.not_le.mp behind
        have ⟨inserts, _⟩ := aheadCase synced' (mine.trans epochEq.symm) (by rw [dueEq]; exact ahead) absent
        rw [decide_eq_true ahead]
        exact (inserts.outcome rfl absent origin).1 room
    · by_cases behind : 32768 ≤ (k.seq - (s.ctx k.origin).nextDue).toNat
      · have ⟨inserts, _⟩ := behindCase synced' (mine.trans epochEq.symm) (by rw [dueEq]; exact behind)
        obtain ⟨gone, -, plain⟩ := (inserts.outcome rfl absent origin).2 full
        rw [if_neg (Nat.not_lt.mpr behind), if_neg (Nat.not_lt.mpr behind)]
        exact ⟨gone, plain rfl⟩
      · have ahead := Nat.not_le.mp behind
        have ⟨inserts, _⟩ := aheadCase synced' (mine.trans epochEq.symm) (by rw [dueEq]; exact ahead) absent
        obtain ⟨gone, told, -⟩ := (inserts.outcome rfl absent origin).2 full
        rw [if_pos ahead, if_pos ahead]
        exact ⟨gone, told rfl⟩

end Sys2Proof.Machine
end

section
/-! The ends of a transmission: FRAME_END and COLLISION (O56, O57, O58). -/

open Sys2Proof

namespace Sys2Proof.Machine

set_option Elab.async false

/-! ### What the owner of a replay duty is told (R83 to R86) -/

theorem releaseDuty_store (s : State) (d : Fin 16) (k : Key) : (s.releaseDuty d k).store = (s.store.clearTx k).2 := by
  rw [State.releaseDuty, State.clearTx, applyStore_store, emptyDuty_only s d .store (by decide)]

theorem replayEnded_sending {s : State} {d : Fin 16} {x : Duty} (there : s.duty d = some x) (sending : x.state = .sending) :
    s.replayEnded d = s.releaseDuty d x.key := by
  simp only [State.replayEnded, there, sending, if_true]

theorem replayEnded_other {s : State} {d : Fin 16} (other : ∀ x, s.duty d = some x → x.state ≠ .sending) :
    s.replayEnded d = s := by
  unfold State.replayEnded
  split
  · rfl
  · rename_i x there
    exact if_neg (other x there)

theorem replayEnded_duty (s : State) (d e : Fin 16) (ne : e ≠ d) : (s.replayEnded d).duty e = s.duty e := by
  unfold State.replayEnded
  split
  · rfl
  · split
    · rw [(releaseDuty_effect _ _ _).1, if_neg ne]
    · rfl

theorem replayCollided_duty (s : State) (d e : Fin 16) : (s.replayCollided d).duty e = (s.duty e).map fun x =>
    if e = d ∧ x.state = .sending then { x with state := .eligible, count := x.count + 1 } else x := by
  have none (ne : e ≠ d) : s.duty e = (s.duty e).map fun x =>
      if e = d ∧ x.state = .sending then { x with state := .eligible, count := x.count + 1 } else x := by
    cases s.duty e <;> simp [ne]
  unfold State.replayCollided
  by_cases eq : e = d
  · subst eq
    split
    · rename_i free
      simp [free]
    · rename_i x there
      split
      · rename_i sending
        simp [there, sending]
      · rename_i other
        simp [there, other]
  · split
    · exact none eq
    · split
      · rw [State.duty_setDuty, if_neg eq]
        exact none eq
      · exact none eq

theorem replayCollided_eligible (s : State) (d : Fin 16) : (s.replayCollided d).duties.eligible = s.duties.eligible := by
  unfold State.replayCollided
  split
  · rfl
  · split <;> rfl

/-! ### What the owner of a request is told (R58, R60 to R62, R68) -/

/-- A tracker whose request has been sent (R60, R62). -/
def Tracker.afterSent (setup : Setup) (x : Tracker) : Tracker :=
  { x with
    marker := .none
    attempts := if setup.attemptLimit ≤ x.attempts then x.attempts else x.attempts + 1
    state := if x.state = .delay then .wait else x.state
    timer := if x.state = .delay then .repairTimeout setup.repairTimeout else x.timer }

/-- A tracker whose request has been abandoned (R61, R62). -/
def Tracker.afterAbandon (delay : Nat) (x : Tracker) : Tracker :=
  { x with marker := .none, timer := if x.state = .delay then .requestDelay delay else x.timer }

/-- A tracker and its request leave the wire, and the request its list. -/
structure Unlists (s t : State) (i : Fin 8) (x : Tracker) : Prop where
  tracker : ∀ j, t.tracker j = if j = i then x else s.tracker j
  requests : t.pool.requests = s.pool.requests.filter fun r => r.tracker != i

theorem Unlists.drop {s u : State} (pool : u.pool = s.pool) (i : Fin 8) (x : Tracker) :
    Unlists s ((u.setTracker i x).dropRequest i) i x :=
  ⟨fun j => by rw [tracker_dropRequest, State.tracker_setTracker, State.tracker_congr (congrArg _ pool)],
    by rw [requests_dropRequest, State.pool_setTracker_requests, pool]⟩

theorem requestSent_onWire {s : State} {i : Fin 8} (onWire : (s.tracker i).marker = .onWire) :
    Unlists s (s.requestSent i) i ((s.tracker i).afterSent s.setup) := by
  have sent : s.requestSent i =
      ((s.count .requestsSent).setTracker i ((s.tracker i).afterSent s.setup)).dropRequest i := by
    unfold State.requestSent
    dsimp only
    refine (if_pos onWire).trans (congrArg (fun x => ((s.count .requestsSent).setTracker i x).dropRequest i) ?_)
    rw [raiseAttempts_eq, Tracker.afterSent]
    split
    · rename_i delay
      have delay' : (s.tracker i).state = .delay := delay
      rw [if_pos delay', if_pos delay']
      rfl
    · rename_i other
      have other' : (s.tracker i).state ≠ .delay := other
      rw [if_neg other', if_neg other']
      rfl
  rw [sent]
  exact Unlists.drop (s := s) (u := s.count .requestsSent) rfl _ _

theorem requestSent_offWire {s : State} {i : Fin 8} (offWire : (s.tracker i).marker ≠ .onWire) :
    (s.requestSent i).pool = s.pool := by
  unfold State.requestSent
  dsimp only
  rw [if_neg (show ((s.count .requestsSent).tracker i).marker ≠ .onWire from offWire)]
  rfl

theorem requestAbandoned_onWire {s : State} {i : Fin 8} (onWire : (s.tracker i).marker = .onWire) :
    Unlists s (s.requestAbandoned i) i ((s.tracker i).afterAbandon (s.requestDelay (s.tracker i).origin)) := by
  have abandoned : s.requestAbandoned i =
      (s.setTracker i ((s.tracker i).afterAbandon (s.requestDelay (s.tracker i).origin))).dropRequest i := by
    unfold State.requestAbandoned
    dsimp only
    refine (if_pos onWire).trans (congrArg (fun x => (s.setTracker i x).dropRequest i) ?_)
    rw [Tracker.afterAbandon]
    split <;> rfl
  rw [abandoned]
  exact .drop rfl _ _

theorem requestCollided_tracker (s : State) (i j : Fin 8) : (s.requestCollided i).tracker j =
    if j = i ∧ (s.tracker j).marker = .onWire then
      { s.tracker j with marker := if (s.tracker j).state = .parked then .none else .pending }
    else s.tracker j := by
  unfold State.requestCollided
  dsimp only
  split
  · rename_i onWire
    split
    · rename_i parked
      rw [tracker_dropRequest, State.tracker_setTracker]
      by_cases eq : j = i
      · subst eq
        simp [onWire, parked]
      · simp [eq]
    · rename_i serving
      rw [State.tracker_setRequests, State.tracker_setTracker]
      by_cases eq : j = i
      · subst eq
        simp [onWire, serving]
      · simp [eq]
  · rename_i offWire
    by_cases eq : j = i
    · subst eq
      simp [offWire]
    · simp [eq]

theorem requestCollided_requests (s : State) (i : Fin 8) : (s.requestCollided i).pool.requests =
    if (s.tracker i).marker = .onWire then
      if (s.tracker i).state = .parked then s.pool.requests.filter (fun r => r.tracker != i)
      else s.pool.requests.map (fun r => if r.tracker = i then { r with count := r.count + 1 } else r)
    else s.pool.requests := by
  unfold State.requestCollided
  dsimp only
  split
  · split <;> rfl
  · rfl

/-! ### What the Submission Unit is told (R119, R120) -/

theorem dataEnded_sending {s : State} {h : DataDuty} {rest : List DataDuty} (queue : s.submission.queue = h :: rest)
    (sending : h.marker = .sending) :
    s.dataEnded.submission = { s.submission with queue := rest, nextUntx := h.seq + 1 } ∧
      s.dataEnded.store = (s.store.clearTx { origin := s.stn, epoch := s.submission.ownEpoch, seq := h.seq }).2 ∧
      (s.dataEnded.ctx s.stn).horizon = if s.setup.loopback then h.seq else (s.ctx s.stn).horizon := by
  have ended : s.dataEnded = ((s.withSubmission { s.submission with queue := rest, nextUntx := h.seq + 1 }).clearTx
      (s.ownKey h.seq)).tellOwnContext h.seq := by
    simp only [State.dataEnded, queue, sending, if_true]
  have cleared := clearTx_only (s.withSubmission { s.submission with queue := rest, nextUntx := h.seq + 1 }) (s.ownKey h.seq)
  have store : ((s.withSubmission { s.submission with queue := rest, nextUntx := h.seq + 1 }).clearTx (s.ownKey h.seq)).store =
      (s.store.clearTx (s.ownKey h.seq)).2 := applyStore_store _ _
  rw [ended]
  generalize (s.withSubmission { s.submission with queue := rest, nextUntx := h.seq + 1 }).clearTx (s.ownKey h.seq) = u
    at cleared store ⊢
  have told := tellOwnContext_only u h.seq
  have station : u.station = s.station := cleared .station (by decide)
  refine ⟨(told .submission (by decide)).trans (cleared .submission (by decide)), (told .store (by decide)).trans store, ?_⟩
  have setup : u.setup.loopback = s.setup.loopback := by rw [State.setup, station]; rfl
  have stn : u.stn = s.stn := congrArg StationControl.stn station
  unfold State.tellOwnContext
  rw [setup, stn]
  split
  · rw [State.ctx_setCtx, if_pos rfl]
  · rw [State.ctx_congr (cleared .contexts (by decide))]
    rfl

theorem dataCollided_nil {s : State} (queue : s.submission.queue = []) : s.dataCollided = s := by
  simp only [State.dataCollided, queue]

theorem dataCollided_cons {s : State} {h : DataDuty} {rest : List DataDuty} (queue : s.submission.queue = h :: rest) :
    s.dataCollided.submission = { s.submission with
      queue := (if h.marker = .sending then { h with marker := .waiting, count := h.count + 1 } else h) :: rest } := by
  simp only [State.dataCollided, queue]
  split
  · rfl
  · rw [← queue]

/-! ### The frame end (R134, R149, R169) -/

/-- The owner has been told; the Scheduler and a LEAVING station follow. -/
theorem frameEnds_after (s : State) (c : Commitment) :
    Only [.sched, .station, .trunk, .contexts] (s.stopDriving.tellSent c.duty) (s.frameEnds c) ∧
      ∀ o, ((s.frameEnds c).ctx o).horizon = ((s.stopDriving.tellSent c.duty).ctx o).horizon := by
  unfold State.frameEnds
  dsimp only
  generalize s.stopDriving.tellSent c.duty = u
  refine ⟨((withSched_only _ _).then (transmitterFree_only _)).mono, fun o => ?_⟩
  unfold State.transmitterFree
  split
  · rw [enterReady_ctx]
    rfl
  · rfl

/-- The Scheduler when the owner of duty `d` is told that the duty has ended (R134, R136). -/
def Scheduler.afterEnd (x : Scheduler) (d : DutyRef) : Scheduler :=
  { x with
    beaconDuty := x.beaconDuty && d != .beacon
    beaconCount := if d = .beacon then 0 else x.beaconCount }

theorem Scheduler.afterEnd_other {x y : Scheduler} {d : DutyRef} (other : d ≠ .beacon) (same : y = x) : y = x.afterEnd d := by
  have yes : (d != .beacon) = true := bne_iff_ne.mpr other
  simp [same, Scheduler.afterEnd, other, yes]

theorem replayEnded_sched {s : State} (busy : s.sched.state ≠ .holdoff) (d : Fin 16) : (s.replayEnded d).sched = s.sched :=
  (replayEnded_inner s d).sched.resolve_right fun h => busy h.1

theorem dataEnded_sched (s : State) : s.dataEnded.sched = s.sched := by
  unfold State.dataEnded
  split
  · rfl
  · split
    · rw [tellOwnContext_only _ _ .sched (by decide)]
      exact (clearTx_resumes _ _).2
    · rfl

theorem tellSent_afterEnd {s : State} (busy : s.sched.state ≠ .holdoff) (d : DutyRef) :
    (s.tellSent d).sched = s.sched.afterEnd d := by
  cases d with
  | replay d => exact Scheduler.afterEnd_other (by exact nofun) (replayEnded_sched (s := s.count .replaysSent) busy d)
  | gapreq i => exact Scheduler.afterEnd_other (by exact nofun) (requestSent_only s i .sched (by decide))
  | data => exact Scheduler.afterEnd_other (by exact nofun) (dataEnded_sched s)
  | beacon =>
    show ({ s.sched with beaconDuty := false, beaconCount := 0 } : Scheduler) = _
    simp [Scheduler.afterEnd]

theorem tellAbandoned_afterEnd {s : State} (busy : s.sched.state ≠ .holdoff) (d : DutyRef) :
    (s.tellAbandoned d).sched = s.sched.afterEnd d := by
  cases d with
  | replay d => exact Scheduler.afterEnd_other (by exact nofun) (replayEnded_sched busy d)
  | gapreq i => exact Scheduler.afterEnd_other (by exact nofun) (requestAbandoned_only s i .sched (by decide))
  | data => exact tellSent_afterEnd busy .data
  | beacon => exact tellSent_afterEnd busy .beacon

theorem frameEnds_sched {s : State} (sending : s.sched.state = .sending) (c : Commitment) : (s.frameEnds c).sched =
    { s.sched.afterEnd c.duty with state := .idle, commitment := none, abandons := 0 } := by
  have told : (s.stopDriving.tellSent c.duty).sched = s.sched.afterEnd c.duty :=
    tellSent_afterEnd (s := s.stopDriving) (by rw [State.stopDriving, State.withTrunk_sched, sending]; exact nofun) c.duty
  unfold State.frameEnds
  dsimp only
  rw [transmitterFree_only _ .sched (by decide), State.withSched_sched, told]

/-- The transmitter-free notice (R169). -/
theorem transmitterFree_station (s : State) :
    s.transmitterFree.trunk = { s.trunk with rx := if s.station.state = .leaving then RxPath.at .off else s.trunk.rx } ∧
      s.transmitterFree.station =
        if s.station.state = .leaving then { s.station with state := .ready, muteReason := none, listenTimer := none }
        else s.station := by
  unfold State.transmitterFree
  split <;> exact ⟨rfl, rfl⟩

theorem frameEnds_station (s : State) (c : Commitment) :
    (s.frameEnds c).trunk =
        { s.trunk with
          burst := false, tx := none
          rx := RxPath.at (if s.station.state = .leaving then .off else .waiting) } ∧
      (s.frameEnds c).station =
        if s.station.state = .leaving then
          { s.station with state := .ready, muteReason := none, listenTimer := none }
        else s.station := by
  have told : (s.stopDriving.tellSent c.duty).station = s.station := tellSent_only _ _ .station (by decide)
  have stopped : (s.stopDriving.tellSent c.duty).trunk = s.stopDriving.trunk := tellSent_only _ _ .trunk (by decide)
  unfold State.frameEnds
  dsimp only
  obtain ⟨trunk, station⟩ := transmitterFree_station ((s.stopDriving.tellSent c.duty).withSched
    { (s.stopDriving.tellSent c.duty).sched with state := .idle, commitment := none, abandons := 0 })
  rw [State.withSched_station, told] at station
  rw [State.withSched_station, State.withSched_trunk, told, stopped] at trunk
  refine ⟨trunk.trans ?_, station⟩
  split <;> rfl

/-- Cells read back that show no mismatch, with cells still to come. -/
theorem readBack_short {before rest : List BurstCell} (more : rest ≠ []) :
    readBack (before ++ rest) (before.map some) = .unfinished := by
  have prefixed := readBack_prefix before rest []
  rw [List.append_nil] at prefixed
  rw [prefixed]
  cases rest with
  | nil => exact absurd rfl more
  | cons c rest => rfl

/-- Settles O56: each owner is told for itself; Scheduler, trunk and station follow. -/
theorem frameEndTellsSent : Obligations.FrameEndTellsSent := by
  intro c bytes s sending committed driving
  have cells (read : List (Option BurstCell)) := State.readBackCells_of_sending sending committed driving read
  refine ⟨fun n short => ?_, s.frameEnds c, ?_, ?_⟩
  · have unfinished := readBack_short (before := (lineCells bytes).take n) (rest := (lineCells bytes).drop n)
      (List.drop_eq_nil_iff.not.mpr (Nat.not_le.mpr short))
    rw [List.take_append_drop] at unfinished
    exact congrArg Host.Outcome.next (by rw [cells, unfinished])
  · have whole := readBack_whole (lineCells bytes) []
    rw [List.append_nil] at whole
    exact congrArg Host.Outcome.next (by rw [cells, whole])
  have told := tellSent_only s.stopDriving c.duty
  obtain ⟨after, horizon⟩ := frameEnds_after s c
  have only : Only [.store, .pool, .sched, .duties, .counters, .submission, .contexts, .station, .trunk] s (s.frameEnds c) :=
    (((withTrunk_only s _).then told).then after).mono
  obtain ⟨trunk, station⟩ := frameEnds_station s c
  have dutyEq (d : Fin 16) : (s.frameEnds c).duty d = (s.stopDriving.tellSent c.duty).duty d :=
    State.duty_congr (congrArg _ (after .duties (by decide))) d
  have trackerEq (i : Fin 8) : (s.frameEnds c).tracker i = (s.stopDriving.tellSent c.duty).tracker i :=
    State.tracker_congr (congrArg _ (after .pool (by decide))) i
  have duties : (s.frameEnds c).duties = (s.stopDriving.tellSent c.duty).duties := after .duties (by decide)
  have pool : (s.frameEnds c).pool = (s.stopDriving.tellSent c.duty).pool := after .pool (by decide)
  have counters : (s.frameEnds c).counters = (s.stopDriving.tellSent c.duty).counters := after .counters (by decide)
  have submission : (s.frameEnds c).submission = (s.stopDriving.tellSent c.duty).submission := after .submission (by decide)
  have store : (s.frameEnds c).store = (s.stopDriving.tellSent c.duty).store := after .store (by decide)
  simp only [dutyEq, trackerEq, horizon, duties, pool, counters, submission, store]
  refine ⟨frameEnds_sched sending c, trunk, station, only .events (by decide), only .delivery (by decide),
    only .control (by decide), only .out (by decide), only .pending (by decide), fun d is => ?_, fun i is => ?_,
    fun h rest is queue head => ?_, fun is => ?_⟩
  all_goals rw [is]
  · have ended := replayEnded_only (s.stopDriving.count .replaysSent) d
    refine ⟨ended .counters (by decide), ended .submission (by decide), fun e other => replayEnded_duty _ d e other,
      fun x there onWire => ?_, fun other => ?_⟩
    · have eq : s.stopDriving.tellSent (.replay d) = (s.stopDriving.count .replaysSent).releaseDuty d x.key :=
        replayEnded_sending (s := s.stopDriving.count .replaysSent) there onWire
      obtain ⟨duty, eligible, -⟩ := releaseDuty_effect (s.stopDriving.count .replaysSent) d x.key
      rw [eq]
      exact ⟨(duty d).trans (if_pos rfl), eligible, releaseDuty_store _ _ _⟩
    · have eq : s.stopDriving.tellSent (.replay d) = s.stopDriving.count .replaysSent :=
        replayEnded_other (s := s.stopDriving.count .replaysSent) other
      rw [eq]
      exact ⟨rfl, rfl⟩
  · have sent := requestSent_only s.stopDriving i
    refine ⟨?_, sent .submission (by decide), sent .duties (by decide), sent .store (by decide), fun onWire => ?_,
      fun offWire => requestSent_offWire (s := s.stopDriving) offWire⟩
    · show (s.stopDriving.requestSent i).counters = _
      unfold State.requestSent
      dsimp only
      split <;> rfl
    · have unlists := requestSent_onWire (s := s.stopDriving) onWire
      exact ⟨(unlists.tracker i).trans (if_pos rfl), unlists.requests,
        fun j other => (unlists.tracker j).trans (if_neg other)⟩
  · have ended := dataEnded_only s.stopDriving
    obtain ⟨submission, store, own⟩ := dataEnded_sending (s := s.stopDriving) queue head
    exact ⟨submission, store, ended .duties (by decide), ended .counters (by decide), own⟩
  · exact ⟨rfl, rfl, rfl, rfl, rfl⟩

end Sys2Proof.Machine
end

section
/-! COLLISION (O57, O58). -/

open Sys2Proof

namespace Sys2Proof.Machine

set_option Elab.async false

theorem midCell_differs {read : Option BurstCell} {sent : Bool} (differs : read ≠ some (.data sent)) :
    midCell read ≠ midCell (some (.data sent)) := by
  rcases read with _ | (b | _)
  · exact nofun
  · intro same
    have eq : b = sent := Option.some.inj same
    exact differs (eq ▸ rfl)
  · exact nofun

section Collision

variable {c : Commitment} {bytes : List Byte} {before after : List BurstCell} {sent : Bool} {read : Option BurstCell} {s : State}
  (sending : s.sched.state = .sending) (committed : s.sched.commitment = some c) (driving : s.trunk.tx = some bytes)
  (cells : lineCells bytes = before ++ .data sent :: after)

include sending committed driving cells

theorem exec_collision_early : exec (.collision (before.map some)) s = .next s := by
  refine congrArg Host.Outcome.next ?_
  rw [State.readBackCells_of_sending sending committed driving, cells, readBack_short (List.cons_ne_nil _ _)]

theorem exec_collision (differs : read ≠ some (.data sent)) :
    exec (.collision (before.map some ++ [read])) s = .next (s.collides c) := by
  refine congrArg Host.Outcome.next ?_
  rw [State.readBackCells_of_sending sending committed driving, cells, readBack_differs (midCell_differs differs)]

end Collision

/-- The Scheduler when the owner of duty `d` is told of a collision (R135). -/
def Scheduler.afterCollision (x : Scheduler) (d : DutyRef) : Scheduler :=
  { x with beaconCount := if d = .beacon ∧ x.beaconDuty = true then x.beaconCount + 1 else x.beaconCount }

theorem tellCollision_afterCollision (s : State) (d : DutyRef) : (s.tellCollision d).sched = s.sched.afterCollision d := by
  cases d with
  | replay d => exact replayCollided_only s d .sched (by decide)
  | gapreq i => exact requestCollided_only s i .sched (by decide)
  | data => exact dataCollided_only s .sched (by decide)
  | beacon =>
    unfold State.tellCollision Scheduler.afterCollision
    by_cases pending : s.sched.beaconDuty = true
    · simp [pending]
    · rw [if_neg pending, if_neg fun h => pending h.2]

theorem tellCollision_beacon (s : State) : Only [.sched] s (s.tellCollision .beacon) := by
  unfold State.tellCollision
  dsimp only
  split
  · exact withSched_only _ _
  · exact .refl _ _

/-- A duty that is SENDING is ELIGIBLE again when its collision is told (R83). -/
theorem tellCollision_duty (s : State) (d : DutyRef) :
    (s.tellCollision d).duties.eligible = s.duties.eligible ∧ ∀ e : Fin 16, (s.tellCollision d).duty e = (s.duty e).map fun x =>
      if d = .replay e ∧ x.state = .sending then { x with state := .eligible, count := x.count + 1 } else x := by
  have stand {t : State} (same : t.duties = s.duties) (other : ∀ e, d ≠ .replay e) :
      t.duties.eligible = s.duties.eligible ∧ ∀ e : Fin 16, t.duty e = (s.duty e).map fun x =>
        if d = .replay e ∧ x.state = .sending then { x with state := .eligible, count := x.count + 1 } else x := by
    refine ⟨congrArg _ same, fun e => ?_⟩
    rw [State.duty_congr (congrArg _ same)]
    cases s.duty e <;> simp [other e]
  cases d with
  | replay r =>
    refine ⟨replayCollided_eligible s r, fun e => (replayCollided_duty s r e).trans ?_⟩
    refine congrArg (fun f => (s.duty e).map f) (funext fun x => if_congr (and_congr_left' ?_) rfl rfl)
    exact ⟨fun eq => congrArg _ eq.symm, fun eq => (DutyRef.replay.inj eq).symm⟩
  | gapreq i => exact stand (requestCollided_only s i .duties (by decide)) fun _ => nofun
  | data => exact stand (dataCollided_only s .duties (by decide)) fun _ => nofun
  | beacon => exact stand (tellCollision_beacon s .duties (by decide)) fun _ => nofun

/-- A tracker whose request is on the wire when its collision is told (R58, R68). -/
theorem tellCollision_tracker (s : State) (d : DutyRef) (i : Fin 8) : (s.tellCollision d).tracker i =
    if d = .gapreq i ∧ (s.tracker i).marker = .onWire then
      { s.tracker i with marker := if (s.tracker i).state = .parked then .none else .pending }
    else s.tracker i := by
  have stand {t : State} (same : t.pool = s.pool) (other : d ≠ .gapreq i) : t.tracker i =
      if d = .gapreq i ∧ (s.tracker i).marker = .onWire then
        { s.tracker i with marker := if (s.tracker i).state = .parked then .none else .pending }
      else s.tracker i := by
    rw [if_neg fun h => other h.1, State.tracker_congr (congrArg _ same)]
  cases d with
  | gapreq j =>
    refine (requestCollided_tracker s j i).trans (if_congr (and_congr_left' ?_) rfl rfl)
    exact ⟨fun eq => congrArg _ eq.symm, fun eq => (DutyRef.gapreq.inj eq).symm⟩
  | replay r => exact stand (replayCollided_only s r .pool (by decide)) nofun
  | data => exact stand (dataCollided_only s .pool (by decide)) nofun
  | beacon => exact stand (tellCollision_beacon s .pool (by decide)) nofun

/-- The head of the DATA duty queue that is SENDING waits again when its collision is told (R119). -/
theorem tellCollision_submission (s : State) (d : DutyRef) : (s.tellCollision d).submission =
    if d = .data then s.dataCollided.submission else s.submission := by
  cases d with
  | data => rfl
  | replay r => exact replayCollided_only s r .submission (by decide)
  | gapreq i => exact requestCollided_only s i .submission (by decide)
  | beacon => exact tellCollision_beacon s .submission (by decide)

theorem startJam_counters (s : State) : s.startJam.counters =
    { s.counters with collisions := BitVec.ofNat 16 (min (s.counters.collisions.toNat + 1) 65535) } := rfl

/-- Settles O57. -/
theorem collisionReturnsDuty : Obligations.CollisionReturnsDuty := by
  intro c bytes before after sent read s sending committed few driving cells differs
  refine ⟨exec_collision_early sending committed driving cells, s.collides c,
    exec_collision sending committed driving cells differs, ?_⟩
  have collides : s.collides c = (s.startJam.tellCollision c.duty).toJamming := if_pos few
  have told := tellCollision_only s.startJam c.duty
  have sched := tellCollision_afterCollision s.startJam c.duty
  obtain ⟨eligible, duty⟩ := tellCollision_duty s.startJam c.duty
  have submission := tellCollision_submission s.startJam c.duty
  rw [collides]
  refine ⟨?_, told .trunk (by decide), (told .counters (by decide)).trans (startJam_counters s), told .store (by decide),
    told .contexts (by decide), told .delivery (by decide), told .station (by decide), told .control (by decide),
    told .events (by decide), told .out (by decide), told .pending (by decide), eligible, duty,
    tellCollision_tracker s.startJam c.duty, ?_, submission.trans ?_⟩
  · show ({ (s.startJam.tellCollision c.duty).sched with state := .jamming, commitment := none } : Scheduler) = _
    rw [sched]
    rfl
  · show (s.startJam.tellCollision c.duty).pool.requests = _
    cases c.duty with
    | gapreq i => exact requestCollided_requests s.startJam i
    | replay r => exact congrArg TrackerPool.requests (replayCollided_only s.startJam r .pool (by decide))
    | data => exact congrArg TrackerPool.requests (dataCollided_only s.startJam .pool (by decide))
    | beacon => exact congrArg TrackerPool.requests (tellCollision_beacon s.startJam .pool (by decide))
  · have same : s.startJam.submission = s.submission := rfl
    by_cases data : c.duty = .data
    · rw [if_pos data]
      cases queue : s.submission.queue with
      | nil =>
        rw [dataCollided_nil (s := s.startJam) queue, same]
        dsimp only
        rw [← queue]
      | cons h rest => simp only [dataCollided_cons (s := s.startJam) queue, same, data, true_and]
    · rw [if_neg data, same]
      cases queue : s.submission.queue with
      | nil =>
        dsimp only
        rw [← queue]
      | cons h rest => simp only [data, false_and, if_false, ← queue]

/-! ### The sixteenth collision (R136, R137) -/

/-- The state at an abandon of duty `d`, up to the mute request. -/
def State.abandoned (s : State) (d : DutyRef) : State := ((s.tellAbandoned d).noteAbandon).toJamming

theorem collides_abandons {s : State} {c : Commitment} (last : 15 ≤ c.count) (few : s.sched.abandons ≤ 3)
    (busy : s.sched.state ≠ .holdoff) :
    s.collides c = if s.station.state = .active ∧ 2 ≤ s.sched.abandons then (s.startJam.abandoned c.duty).enterMuted .abandon
      else s.startJam.abandoned c.duty := by
  have abandons : (s.startJam.abandoned c.duty).sched.abandons = min (s.sched.abandons + 1) 3 := by
    show min ((s.startJam.tellAbandoned c.duty).sched.abandons + 1) 3 = _
    rw [tellAbandoned_afterEnd (s := s.startJam) busy]
    rfl
  have station : (s.startJam.abandoned c.duty).station = s.station := tellAbandoned_only s.startJam c.duty .station (by decide)
  have unfolded : s.collides c = if (s.startJam.abandoned c.duty).sched.abandons = 3 then
      (s.startJam.abandoned c.duty).muteRequest else s.startJam.abandoned c.duty := if_neg (Nat.not_lt.mpr last)
  have active : (s.startJam.abandoned c.duty).isActive = true ↔ s.station.state = .active := by
    rw [State.isActive_iff, station]
  rw [unfolded, abandons]
  by_cases third : 2 ≤ s.sched.abandons
  · rw [if_pos (by omega), State.muteRequest]
    exact if_congr (by simp [active, third]) rfl rfl
  · rw [if_neg (by omega), if_neg fun h => third h.2]

/-- What an abandon leaves, the mute request apart. -/
theorem abandoned_fields {s : State} (busy : s.sched.state ≠ .holdoff) (d : DutyRef) :
    Only [.store, .pool, .sched, .duties, .submission, .contexts, .counters, .events] s (s.abandoned d) ∧
      (s.abandoned d).sched = { s.sched.afterEnd d with
        state := .jamming, commitment := none, abandons := min (s.sched.abandons + 1) 3 } ∧
      (s.abandoned d).events = (s.raise .abandon).events ∧
      (s.abandoned d).counters = { s.counters with abandons := BitVec.ofNat 16 (min (s.counters.abandons.toNat + 1) 65535) } := by
  have told := tellAbandoned_only s d
  have events : (s.tellAbandoned d).events = s.events := told .events (by decide)
  have counters : (s.tellAbandoned d).counters = s.counters := told .counters (by decide)
  refine ⟨((told.then (noteAbandon_only _)).then (withSched_only _ _)).mono, ?_, ?_, ?_⟩
  · show ({ (s.tellAbandoned d).sched with
      state := .jamming, commitment := none, abandons := min ((s.tellAbandoned d).sched.abandons + 1) 3 } : Scheduler) = _
    rw [tellAbandoned_afterEnd busy]
    rfl
  · show ((s.tellAbandoned d).raise .abandon).events = _
    simp only [State.raise, State.withEvents_events, events]
  · show { (s.tellAbandoned d).counters with
      abandons := BitVec.ofNat 16 (min ((s.tellAbandoned d).counters.abandons.toNat + 1) 65535) } = _
    rw [counters]

/-- Leaving ACTIVE for MUTED (R171). -/
theorem enterMuted_quits (s : State) (why : MuteReason) : QuitActive s (s.enterMuted why) ∧ HeldOnly s (s.enterMuted why) ∧
    (s.enterMuted why).events = (s.raise .muted).events := by
  have inactive : ((s.withStation { s.station with state := .muted, muteReason := some why }).raise .muted).isActive = false :=
    isActive_of_ne (by exact nofun)
  have only : Only [.station, .events] s
      ((s.withStation { s.station with state := .muted, muteReason := some why }).raise .muted) :=
    (withStation_only _ _).then (raise_only _ _)
  have events : ((s.withStation { s.station with state := .muted, muteReason := some why }).raise .muted).events =
      (s.raise .muted).events := rfl
  unfold State.enterMuted
  generalize (s.withStation { s.station with state := .muted, muteReason := some why }).raise .muted = u
    at inactive only events ⊢
  exact ⟨(quitActive_quits inactive).of_only only,
    (HeldOnly.of_contexts (only .contexts (by decide))).trans (quitActive_heldOnly u),
    (quitActive_only u .events (by decide)).trans events⟩

/-- The owner's part of an abandon (R61, R85, R120, R136). -/
structure OwnerAbandons (s t : State) (d : DutyRef) : Prop where
  beacon : d = .beacon → t.submission = s.submission
  data : ∀ (h : DataDuty) (rest : List DataDuty), d = .data → s.submission.queue = h :: rest → h.marker = .sending →
    t.submission = { s.submission with queue := rest, nextUntx := h.seq + 1 } ∧
      (t.ctx s.stn).horizon = if s.setup.loopback then h.seq else (s.ctx s.stn).horizon
  replay : ∀ (e : Fin 16) (x : Duty), d = .replay e → s.duty e = some x → x.state = .sending →
    t.duty e = none ∧ ∀ y, t.store.find x.key = some y → y.pins.tx = false

theorem abandoned_told (s : State) (d : DutyRef) : Only [.counters, .events, .sched] (s.tellAbandoned d) (s.abandoned d) :=
  ((noteAbandon_only _).then (withSched_only _ _)).mono

theorem abandoned_owner (s : State) (d : DutyRef) : OwnerAbandons s (s.abandoned d) d where
  beacon is := by
    subst is
    rfl
  data h rest is queue head := by
    subst is
    obtain ⟨submission, -, horizon⟩ := dataEnded_sending queue head
    have after : Only [.counters, .events, .sched] s.dataEnded (s.abandoned .data) := abandoned_told s .data
    generalize s.abandoned .data = t at after ⊢
    have submissionEq : t.submission = s.dataEnded.submission := after .submission (by decide)
    have contextsEq : t.contexts = s.dataEnded.contexts := after .contexts (by decide)
    exact ⟨submissionEq.trans submission, by rw [State.ctx_congr contextsEq, horizon]⟩
  replay e x is there onWire := by
    subst is
    have released : s.tellAbandoned (.replay e) = s.releaseDuty e x.key := replayEnded_sending there onWire
    have after := abandoned_told s (.replay e)
    rw [released] at after
    generalize s.abandoned (.replay e) = t at after ⊢
    have dutiesEq : t.duties = (s.releaseDuty e x.key).duties := after .duties (by decide)
    have storeEq : t.store = (s.releaseDuty e x.key).store := after .store (by decide)
    refine ⟨?_, fun y found => ?_⟩
    · rw [State.duty_congr (congrArg _ dutiesEq), (releaseDuty_effect s e x.key).1, if_pos rfl]
    · rw [storeEq, releaseDuty_store, find_clearTx, if_pos rfl] at found
      obtain ⟨z, -, rfl⟩ := Option.map_eq_some_iff.mp found
      rfl

/-- Leaving ACTIVE adds nothing to the owner's part. -/
theorem OwnerAbandons.enterMuted {s t : State} {d : DutyRef} (h : OwnerAbandons s t d) (why : MuteReason) :
    OwnerAbandons s (t.enterMuted why) d := by
  obtain ⟨quits, held, -⟩ := enterMuted_quits t why
  refine ⟨fun is => quits.queue.trans (h.beacon is), fun x rest is queue head => ?_, fun e x is there onWire => ?_⟩
  · obtain ⟨submission, horizon⟩ := h.data x rest is queue head
    refine ⟨quits.queue.trans submission, ?_⟩
    rw [held s.stn]
    exact horizon
  · obtain ⟨-, untx⟩ := h.replay e x is there onWire
    refine ⟨quits.duties e, fun y found => ?_⟩
    rw [quits.pins] at found
    obtain ⟨z, there, rfl⟩ := Option.map_eq_some_iff.mp found
    split
    · rfl
    · exact untx z there

/-- Settles O58: the abandon, and at the third in a row what leaving ACTIVE makes of it. -/
theorem sixteenthCollisionAbandons : Obligations.SixteenthCollisionAbandons := by
  intro c bytes before after sent read s sending committed last few driving cells differs
  have busy : s.startJam.sched.state ≠ .holdoff := by
    show s.sched.state ≠ .holdoff
    rw [sending]
    exact nofun
  obtain ⟨only, sched, events, counters⟩ := abandoned_fields busy c.duty
  have owner := abandoned_owner s.startJam c.duty
  have collides := collides_abandons last few busy
  refine ⟨s.collides c, exec_collision sending committed driving cells differs, ?_⟩
  have jam : Only [.counters, .trunk] s s.startJam := startJam_only s
  have station : (s.startJam.abandoned c.duty).station = s.station := only .station (by decide)
  have trunk : (s.startJam.abandoned c.duty).trunk = { s.trunk with rx := RxPath.at .skip, tx := none } := only .trunk (by decide)
  have delivery : (s.startJam.abandoned c.duty).delivery = s.delivery := only .delivery (by decide)
  have control : (s.startJam.abandoned c.duty).control = s.control := only .control (by decide)
  have out : (s.startJam.abandoned c.duty).out = s.out := only .out (by decide)
  have pending : (s.startJam.abandoned c.duty).pending = s.pending := only .pending (by decide)
  by_cases mutes : s.station.state = .active ∧ 2 ≤ s.sched.abandons
  · rw [if_pos mutes] at collides
    rw [collides]
    obtain ⟨mutedStation, mutedTrunk, mutedSched, -⟩ := enterMuted_station (s.startJam.abandoned c.duty) .abandon
    obtain ⟨quits, -, raised⟩ := enterMuted_quits (s.startJam.abandoned c.duty) .abandon
    have mutedOnly := enterMuted_only (s.startJam.abandoned c.duty) .abandon
    have left : ((s.startJam.abandoned c.duty).enterMuted .abandon).sched =
        { (s.startJam.abandoned c.duty).sched with beaconTimer := none, beaconDuty := false, beaconCount := 0 } := by
      rw [mutedSched, Scheduler.leaveActive, if_neg]
      rw [sched]
      exact nofun
    have owner' := owner.enterMuted .abandon
    refine ⟨by rw [left, sched], by rw [left, sched], by rw [left, sched]; rfl, mutedTrunk.trans trunk,
      (quits.counters).trans counters, (mutedOnly .delivery (by decide)).trans delivery,
      (mutedOnly .control (by decide)).trans control, (mutedOnly .out (by decide)).trans out,
      (mutedOnly .pending (by decide)).trans pending,
      fun is => ⟨by rw [left], by rw [left], owner'.beacon is⟩, owner'.data, owner'.replay,
      fun stays => ?_, fun _ _ => ⟨by rw [mutedStation, station], ?_, by rw [left], by rw [left], quits.duties, quits.trackers⟩⟩
    · rcases stays with inactive | early
      · exact absurd mutes.1 inactive
      · exact absurd mutes.2 (Nat.not_le.mpr early)
    · rw [raised]
      simp only [State.raise, State.withEvents_events] at events ⊢
      rw [events]
      rfl
  · rw [if_neg mutes] at collides
    rw [collides]
    refine ⟨by rw [sched], by rw [sched], by rw [sched]; rfl, trunk, counters, delivery, control, out, pending,
      fun is => ⟨by rw [sched]; simp [Scheduler.afterEnd, is], by rw [sched]; simp [Scheduler.afterEnd, is], owner.beacon is⟩,
      owner.data, owner.replay, fun _ => ⟨station, events, fun i is onWire => ?_⟩, fun active third => absurd ⟨active, third⟩ mutes⟩
    have unlists := requestAbandoned_onWire (s := s.startJam) (i := i) onWire
    have told : Only [.counters, .events, .sched] (s.startJam.requestAbandoned i) (s.startJam.abandoned (.gapreq i)) :=
      abandoned_told s.startJam (.gapreq i)
    rw [is]
    generalize s.startJam.abandoned (.gapreq i) = t at told ⊢
    have pool : t.pool = (s.startJam.requestAbandoned i).pool := told .pool (by decide)
    have tracker := unlists.tracker i
    rw [if_pos rfl] at tracker
    rw [State.tracker_congr (congrArg _ pool), pool, unlists.requests, tracker]
    exact ⟨rfl, rfl⟩

end Sys2Proof.Machine
end

section
/-! What leaves contexts and runs alone, and what the frames of others and the give-ups do to them: the ground for O11, O12 and
O51. -/

open Sys2Proof

namespace Sys2Proof.Machine

set_option Elab.async false

/-! ### Trackers that keep their runs -/

/-- A tracker keeps its origin, epoch and run, and is FREE as before. -/
def Tracker.Stands (x y : Tracker) : Prop :=
  (y.state = .free ↔ x.state = .free) ∧ y.origin = x.origin ∧ y.epoch = x.epoch ∧ y.runFirst = x.runFirst ∧ y.runCount = x.runCount

theorem Tracker.Stands.refl (x : Tracker) : x.Stands x := ⟨Iff.rfl, rfl, rfl, rfl, rfl⟩

theorem Tracker.Stands.trans {x y z : Tracker} (h : x.Stands y) (k : y.Stands z) : x.Stands z := by
  obtain ⟨free, origin, epoch, first, count⟩ := h
  obtain ⟨free', origin', epoch', first', count'⟩ := k
  exact ⟨free'.trans free, origin'.trans origin, epoch'.trans epoch, first'.trans first, count'.trans count⟩

/-- Every tracker keeps its run. -/
def RunsStand (s t : State) : Prop := ∀ i : Fin 8, (s.tracker i).Stands (t.tracker i)

namespace RunsStand

theorem of_pool {s t : State} (pool : t.pool = s.pool) : RunsStand s t := fun i => by
  rw [State.tracker_congr (congrArg _ pool)]
  exact .refl _

theorem refl (s : State) : RunsStand s s := of_pool rfl

theorem trans {s t u : State} (h : RunsStand s t) (k : RunsStand t u) : RunsStand s u := fun i => (h i).trans (k i)

theorem change {s t : State} {i : Fin 8} {x : Tracker} (tracker : ∀ j, t.tracker j = if j = i then x else s.tracker j)
    (stands : (s.tracker i).Stands x) : RunsStand s t := fun j => by
  rw [tracker]
  split
  · rename_i eq
    exact eq ▸ stands
  · exact .refl _

theorem parked (x : Tracker) : x.Stands x.afterExhausted := by
  unfold Tracker.afterExhausted
  split
  · rename_i timed
    refine ⟨iff_of_false (by exact nofun) fun free => ?_, rfl, rfl, rfl, rfl⟩
    rcases timed with h | h <;> rw [h] at free <;> cases free
  · exact .refl x

theorem resumed (x : Tracker) (delay : Nat) : x.Stands (x.afterClaimable delay) := by
  unfold Tracker.afterClaimable
  split
  · rename_i parked
    refine ⟨iff_of_false (by exact nofun) fun free => ?_, rfl, rfl, rfl, rfl⟩
    rw [parked] at free
    cases free
  · exact .refl x

theorem reportFrom (s : State) (old : Nat) : RunsStand s (s.reportFrom old) := by
  unfold State.reportFrom
  split
  · intro i
    rw [(exhaustedReport_parks s).1 i]
    exact parked _
  · split
    · intro i
      rw [claimableReport_resumes]
      exact resumed _ _
    · exact .refl s

theorem applyStore (s : State) (st : Store) : RunsStand s (s.applyStore st) := by
  unfold State.applyStore
  exact (of_pool (t := s.withStore st) rfl).trans (.reportFrom _ _)

theorem of_resumes {s t : State} (h : Resumes s t) : RunsStand s t := by
  by_cases calm : s.peerClaimable ≠ 0 ∨ t.peerClaimable = 0
  · exact .of_pool (h.calm calm)
  · obtain ⟨none, some⟩ := not_or.mp calm
    intro i
    rw [(h.resumes (not_not.mp none) some).1 i]
    exact resumed _ _

theorem of_parks {s t : State} (h : Parks s t) : RunsStand s t := by
  by_cases calm : s.peerClaimable = 0 ∨ t.peerClaimable ≠ 0
  · exact .of_pool (h.calm calm).1
  · obtain ⟨some, none⟩ := not_or.mp calm
    intro i
    rw [(h.parks some (not_not.mp none)).1 i]
    exact parked _

theorem hearGapreq (s : State) (origin : Station) (epoch : Epoch) (first : SeqNum) (count : Nat) :
    RunsStand s (s.hearGapreq origin epoch first count) := fun i => by
  rw [(hearGapreq_pool origin epoch first count s).1 i, Tracker.afterGapreq]
  split
  · split
    · rename_i delay
      exact ⟨iff_of_false (by exact nofun) (by rw [delay.1]; exact nofun), rfl, rfl, rfl, rfl⟩
    · split
      · exact ⟨Iff.rfl, rfl, rfl, rfl, rfl⟩
      · exact .refl _
  · exact .refl _

theorem hearReplay (s : State) (k : Key) : RunsStand s (s.hearReplay k) := fun i => by
  rw [(hearReplay_pool s k).1 i, Tracker.afterReplay]
  split
  · exact ⟨Iff.rfl, rfl, rfl, rfl, rfl⟩
  · exact .refl _

end RunsStand

/-! ### Calm changes -/

/-- Entries of the peer share with DUE were there with DUE. -/
def DueFrom (s t : Store) : Prop := ∀ e ∈ t.peer, e.pins.due = true → ∃ x ∈ s.peer, x.key = e.key ∧ x.pins.due = true

namespace DueFrom

theorem refl (s : Store) : DueFrom s s := fun e mem due => ⟨e, mem, rfl, due⟩

theorem trans {s t u : Store} (h : DueFrom s t) (k : DueFrom t u) : DueFrom s u := fun e mem due => by
  obtain ⟨x, there, key, due⟩ := k e mem due
  obtain ⟨y, there, key', due⟩ := h x there due
  exact ⟨y, there, key'.trans key, due⟩

theorem mapPins (st : Store) (k : Key) (f : Pins → Pins) (less : ∀ p, (f p).due = true → p.due = true) :
    DueFrom st (st.mapPins k f) := fun e mem due => by
  rw [Store.mapPins, Store.mapEntries] at mem
  obtain ⟨x, there, rfl⟩ := List.mem_map.mp mem
  refine ⟨x, there, ?_, ?_⟩
  · split <;> rfl
  · split at due
    · exact less _ due
    · exact due

theorem pinTx (st : Store) (k : Key) : DueFrom st (st.pinTx k).2 := by
  rcases st.pinTx_cases k with h | h | h <;> rw [h]
  · exact .refl st
  · exact .refl st
  · exact .mapPins st k _ fun _ => id

theorem clearPin (st : Store) (k : Key) (carried : Pins → Bool) (remove : Pins → Pins)
    (less : ∀ p, (remove p).due = true → p.due = true) : DueFrom st (st.clearPin k carried remove).2 := by
  rcases st.clearPin_cases k carried remove with h | h | h <;> rw [h]
  · exact .refl st
  · exact .refl st
  · exact .mapPins st k _ less

theorem afterDrop (st : Store) (r : Record) : DueFrom st (st.afterDrop r) := by
  cases r with
  | message k => exact .clearPin st k _ _ fun _ => id
  | lost => exact .refl st
  | restart => exact .refl st

end DueFrom

/-- The part's own claims set DUE in no entry of the peer share. -/
theorem Claims.dueFrom {s t : State} (claims : Claims s t) : DueFrom s.store t.store := by
  have same {s t : State} {bs : List Block} (keeps : Keeps bs s t) (out : Block.store ∉ bs) : DueFrom s.store t.store := by
    rw [keeps.store out]
    exact .refl _
  induction claims with
  | refl => exact .refl _
  | trans _ _ one two => exact one.trans two
  | other keeps => exact same keeps (by decide)
  | quit keeps _ _ ih => exact keeps.store (by decide) ▸ ih
  | makeDuty _ _ _ _ _ _ _ _ store => exact store ▸ .pinTx _ _
  | endDuty _ _ _ _ _ store => exact store ▸ .clearPin _ _ _ _ fun _ => id
  | turnDuty _ _ _ _ _ _ _ _ keeps => exact same keeps (by decide)
  | ripen _ _ _ _ keeps => exact same keeps (by decide)
  | dropRecord r _ _ _ _ _ store => exact store ▸ .afterDrop _ r
  | turnHead _ _ _ _ _ keeps => exact same keeps (by decide)
  | endHead _ _ _ _ _ store => exact store ▸ .clearPin _ _ _ _ fun _ => id

/-- Contexts stand where they stood, flags and timers aside, but for the own one. -/
def PlacesStand (s t : State) : Prop := ∀ o : Station, (t.ctx o).state = (s.ctx o).state ∧
  (o ≠ s.stn → (t.ctx o).place = (s.ctx o).place ∧ (t.ctx o).restartPending = (s.ctx o).restartPending)

theorem PlacesStand.of_held {s t : State} (h : HeldOnly s t) : PlacesStand s t := fun o => by
  rw [h o]
  exact ⟨rfl, fun _ => ⟨rfl, rfl⟩⟩

theorem PlacesStand.of_contexts {s t : State} (h : t.contexts = s.contexts) : PlacesStand s t := .of_held (.of_contexts h)

/-- The trackers keep their runs in a station that stays in ACTIVE or out of it, or are all FREE out of ACTIVE. -/
def PoolCalm (s t : State) : Prop :=
  (RunsStand s t ∧ (t.station.state = .active ↔ s.station.state = .active)) ∨
    ((∀ i : Fin 8, (t.tracker i).state = .free) ∧ t.station.state ≠ .active)

theorem PoolCalm.trans {s t u : State} (h : PoolCalm s t) (k : PoolCalm t u) : PoolCalm s u := by
  rcases k with ⟨stands, active⟩ | quits
  · rcases h with ⟨stands', active'⟩ | ⟨free, off⟩
    · exact .inl ⟨stands'.trans stands, active.trans active'⟩
    · exact .inr ⟨fun i => (stands i).1.mpr (free i), fun on => off (active.mp on)⟩
  · exact .inr quits

/-- The silence timers' start (R27). -/
theorem startSilenceTimers_ctx (s : State) (o : Station) : (s.startSilenceTimers.ctx o).state = (s.ctx o).state ∧
    (s.startSilenceTimers.ctx o).place = (s.ctx o).place ∧
    (s.startSilenceTimers.ctx o).restartPending = (s.ctx o).restartPending ∧
    (s.startSilenceTimers.ctx o).trackerHeld = (s.ctx o).trackerHeld := by
  have ctx : s.startSilenceTimers.ctx o =
      if (s.ctx o).heardSinceReset then { s.ctx o with silenceTimer := some s.silencePeriod } else s.ctx o := by
    simp [State.startSilenceTimers, State.ctx, State.withContexts]
    rfl
  rw [ctx]
  split <;> exact ⟨rfl, rfl, rfl, rfl⟩

/-- A change that moves no context, takes no key of another station and gives no tracker a new run. -/
structure Calm (s t : State) : Prop where
  stn : t.stn = s.stn
  places : PlacesStand s t
  keys : t.store.peer.map (fun e => e.key) = s.store.peer.map fun e => e.key
  owned : (∀ e ∈ s.store.own, e.key.origin = s.stn) → ∀ e ∈ t.store.own, e.key.origin = s.stn
  due : DueFrom s.store t.store
  sound : TrackersSound s → TrackersSound t
  pool : TrackersSound s → PoolCalm s t

namespace Calm

theorem trans {s t u : State} (h : Calm s t) (k : Calm t u) : Calm s u where
  stn := k.stn.trans h.stn
  places o := by
    obtain ⟨state, place⟩ := h.places o
    obtain ⟨state', place'⟩ := k.places o
    refine ⟨state'.trans state, fun other => ?_⟩
    obtain ⟨place, restart⟩ := place other
    obtain ⟨place', restart'⟩ := place' (by rw [h.stn]; exact other)
    exact ⟨place'.trans place, restart'.trans restart⟩
  keys := k.keys.trans h.keys
  owned own := by
    have := k.owned (by rw [h.stn]; exact h.owned own)
    rwa [h.stn] at this
  due := h.due.trans k.due
  sound := k.sound ∘ h.sound
  pool sound := (h.pool sound).trans (k.pool (h.sound sound))

theorem of_claims {s t : State} (claims : Claims s t) (places : PlacesStand s t) (sound : TrackersSound s → TrackersSound t)
    (pool : TrackersSound s → PoolCalm s t) : Calm s t where
  stn := claims.station.1
  places := places
  keys := by
    have := congrArg (List.map Prod.fst) claims.pinsOnly.peer
    simpa only [List.map_map, Function.comp_def] using this
  owned own e mem := by
    obtain ⟨x, there, eq⟩ := mem_of_map_eq claims.pinsOnly.own.symm mem
    rw [← own x there]
    exact (congrArg (fun p => p.1.origin) eq).symm
  due := claims.dueFrom
  sound := sound
  pool := pool

/-- A change outside store, trackers, contexts and station. -/
theorem of_only {bs : List Block} {s t : State} (only : Only bs s t)
    (out : ∀ b ∈ bs, b ∉ [Block.store, .pool, .contexts, .station] := by decide) : Calm s t := by
  have same (b : Block) (hb : b ∈ [Block.store, .pool, .contexts, .station]) : b.same s t := only b fun h => out b h hb
  have station : t.station = s.station := same .station (by decide)
  have store : t.store = s.store := same .store (by decide)
  refine ⟨congrArg StationControl.stn station, .of_contexts (same .contexts (by decide)), by rw [store],
    by rw [store]; exact id, by rw [store]; exact .refl _, fun h => ?_, fun _ => .inl ⟨.of_pool (same .pool (by decide)), by rw [station]⟩⟩
  exact h.congr (same .pool (by decide)) (fun o => by rw [State.ctx_congr (same .contexts (by decide))])
    (by rw [station]; exact id)

theorem refl (s : State) : Calm s s := of_only (Only.refl [] s)

/-- A change of the station's state, or of silence timers and the own context, with no tracker in service. -/
theorem of_station {s t : State} (stn : t.stn = s.stn) (places : PlacesStand s t)
    (held : ∀ o, (t.ctx o).trackerHeld = (s.ctx o).trackerHeld) (store : t.store = s.store) (pool : t.pool = s.pool)
    (active : t.station.state = .active ↔ s.station.state = .active) : Calm s t :=
  ⟨stn, places, by rw [store], by rw [store]; exact id, by rw [store]; exact .refl _,
    fun h => h.congr pool held fun off on => off (active.mpr on), fun _ => .inl ⟨.of_pool pool, active⟩⟩

/-- A claim of the part's own with its reports, in a station that stays as it is. -/
theorem of_inner {s t : State} (claims : Claims s t) (inner : Inner s t) (places : PlacesStand s t) (runs : RunsStand s t) :
    Calm s t :=
  .of_claims claims places (fun h => h.inner inner) fun _ => .inl ⟨runs, by rw [inner.station.1]⟩

theorem hearReplay (s : State) (k : Key) : Calm s (s.hearReplay k) :=
  have only := hearReplay_only s k
  .of_inner (.of_plain only) (hearReplay_inner s k) (.of_contexts (only .contexts (by decide))) (.hearReplay s k)

theorem hearGapreq (s : State) (origin : Station) (epoch : Epoch) (first : SeqNum) (count : Nat) :
    Calm s (s.hearGapreq origin epoch first count) :=
  have only := hearGapreq_only s origin epoch first count
  .of_inner (.of_plain only) (hearGapreq_inner s origin epoch first count) (.of_contexts (only .contexts (by decide)))
    (.hearGapreq s origin epoch first count)

theorem cancelKey (s : State) (k : Key) : Calm s (s.cancelKey k) :=
  .of_inner (.cancelKey s k) (cancelKey_inner s k) (.of_contexts (cancelKey_only s k .contexts (by decide)))
    (.of_resumes (cancelKey_effect s k).2.2.2)

theorem answerGapreq (s : State) (requester origin : Station) (epoch : Epoch) (first : SeqNum) (count : Nat) :
    Calm s (s.answerGapreq requester origin epoch first count) :=
  .of_inner (.answerGapreq s _ _ _ _ _) (answerGapreq_inner s _ _ _ _ _)
    (.of_contexts (answerGapreq_only s requester origin epoch first count .contexts (by decide)))
    (.of_parks (answerGapreq_parks s requester origin epoch first count))

theorem heard (s : State) (n : Station) : Calm s (s.heard n) := by
  have ctx (o : Station) : (s.heard n).ctx o = if o = n then
      { s.ctx n with heardSinceReset := true, silent := false, silenceTimer := some s.silencePeriod } else s.ctx o :=
    State.ctx_setCtx _ _ _ _
  refine .of_station rfl (fun o => ?_) (fun o => ?_) rfl rfl Iff.rfl
  · rw [ctx]
    split
    · rename_i eq
      exact eq ▸ ⟨rfl, fun _ => ⟨rfl, rfl⟩⟩
    · exact ⟨rfl, fun _ => ⟨rfl, rfl⟩⟩
  · rw [ctx]
    split
    · rename_i eq
      rw [eq]
    · rfl

theorem startListenTimer (s : State) : Calm s s.startListenTimer :=
  .of_station rfl (.of_contexts rfl) (fun _ => rfl) rfl rfl Iff.rfl

theorem enterMuted {s : State} (why : MuteReason) : Calm s (s.enterMuted why) := by
  obtain ⟨quits, held, -⟩ := enterMuted_quits s why
  refine .of_claims (.enterMuted s why) (.of_held held) (fun h => h.enterMuted why) fun _ => .inr ⟨quits.trackers, ?_⟩
  rw [(enterMuted_station s why).1]
  exact nofun

theorem muteRequest (s : State) : Calm s s.muteRequest := by
  unfold State.muteRequest
  split
  · exact .enterMuted _
  · exact .refl s

theorem acceptLeave (s : State) : Calm s s.acceptLeave := by
  refine .of_claims (.acceptLeave s) (fun o => ?_) TrackersSound.acceptLeave
    fun _ => .inr ⟨(acceptLeave_quits s).trackers, ?_⟩
  · obtain ⟨held, ctx⟩ := acceptLeave_ctx s o
    rw [ctx]
    exact ⟨rfl, fun _ => ⟨rfl, rfl⟩⟩
  · obtain ⟨-, -, station, -⟩ := acceptLeave_station s
    rw [station]
    split <;> exact nofun

theorem transmitterFree (s : State) : Calm s s.transmitterFree := by
  unfold State.transmitterFree
  split
  · rename_i leaving
    refine .of_station rfl (fun o => ?_) (fun o => ?_) rfl rfl (iff_of_false (by exact nofun) (by rw [leaving]; exact nofun))
    · rw [enterReady_ctx]
      exact ⟨rfl, fun _ => ⟨rfl, rfl⟩⟩
    · rw [enterReady_ctx]
  · exact .refl s

theorem dropHead (s : State) : Calm s s.dropHead := by
  refine .of_inner (.dropHead s) (dropHead_inner s) (.of_contexts (dropHead_only s .contexts (by decide))) ?_
  unfold State.dropHead
  split
  · exact .refl s
  · rename_i r rest _
    have first : RunsStand s (s.withDelivery { s.delivery with queue := rest, readPos := 0 }) := .of_pool rfl
    dsimp only
    split
    · exact first.trans (.applyStore _ _)
    · exact first
    · exact first

/-! ### The ends and starts of transmissions -/

theorem unlists {s t : State} {i : Fin 8} {x : Tracker} (h : Unlists s t i x) (stands : (s.tracker i).Stands x) : RunsStand s t :=
  .change h.tracker stands

theorem afterSent_stands {setup : Setup} {x : Tracker} : x.Stands (x.afterSent setup) := by
  refine ⟨?_, rfl, rfl, rfl, rfl⟩
  show (if x.state = .delay then .wait else x.state) = TrackerState.free ↔ x.state = .free
  split
  · rename_i delay
    rw [delay]
    exact iff_of_false (by exact nofun) (by exact nofun)
  · exact Iff.rfl

theorem afterAbandon_stands {delay : Nat} {x : Tracker} : x.Stands (x.afterAbandon delay) := ⟨Iff.rfl, rfl, rfl, rfl, rfl⟩

theorem replayEnded_runs (s : State) (d : Fin 16) : RunsStand s (s.replayEnded d) := by
  unfold State.replayEnded
  split
  · exact .refl s
  · split
    · exact .of_resumes (releaseDuty_effect s d _).2.2.2
    · exact .refl s

theorem dataEnded_places (s : State) : PlacesStand s s.dataEnded ∧ RunsStand s s.dataEnded := by
  unfold State.dataEnded
  split
  · exact ⟨.of_contexts rfl, .refl s⟩
  · rename_i h rest _
    split
    · have cleared := clearTx_only (s.withSubmission { s.submission with queue := rest, nextUntx := h.seq + 1 }) (s.ownKey h.seq)
      have runs : RunsStand s ((s.withSubmission { s.submission with queue := rest, nextUntx := h.seq + 1 }).clearTx
          (s.ownKey h.seq)) :=
        (RunsStand.of_pool (t := s.withSubmission { s.submission with queue := rest, nextUntx := h.seq + 1 }) rfl).trans
          (.applyStore _ _)
      have contexts : ((s.withSubmission { s.submission with queue := rest, nextUntx := h.seq + 1 }).clearTx
          (s.ownKey h.seq)).contexts = s.contexts := cleared .contexts (by decide)
      have stn : ((s.withSubmission { s.submission with queue := rest, nextUntx := h.seq + 1 }).clearTx
          (s.ownKey h.seq)).stn = s.stn := congrArg StationControl.stn (cleared .station (by decide))
      generalize (s.withSubmission { s.submission with queue := rest, nextUntx := h.seq + 1 }).clearTx (s.ownKey h.seq) = u
        at runs contexts stn ⊢
      refine ⟨fun o => ?_, runs.trans (.of_pool (tellOwnContext_only u h.seq .pool (by decide)))⟩
      unfold State.tellOwnContext
      split
      · rw [State.ctx_setCtx, State.ctx_congr contexts, State.ctx_congr contexts, stn]
        split
        · rename_i own
          rw [own]
          exact ⟨rfl, fun other => absurd rfl other⟩
        · exact ⟨rfl, fun _ => ⟨rfl, rfl⟩⟩
      · rw [State.ctx_congr contexts]
        exact ⟨rfl, fun _ => ⟨rfl, rfl⟩⟩
    · exact ⟨.of_contexts rfl, .refl s⟩

theorem tellSent (s : State) (d : DutyRef) : Calm s (s.tellSent d) := by
  have station : (s.tellSent d).station = s.station := tellSent_only s d .station (by decide)
  have parts : PlacesStand s (s.tellSent d) ∧ RunsStand s (s.tellSent d) := by
    cases d with
    | replay d =>
      exact ⟨.of_contexts (replaySent_only s d .contexts (by decide)),
        (RunsStand.of_pool (t := s.count .replaysSent) rfl).trans (replayEnded_runs _ d)⟩
    | gapreq i =>
      refine ⟨.of_contexts (requestSent_only s i .contexts (by decide)), ?_⟩
      by_cases onWire : (s.tracker i).marker = .onWire
      · exact unlists (requestSent_onWire onWire) afterSent_stands
      · exact .of_pool (requestSent_offWire onWire)
    | data => exact dataEnded_places s
    | beacon => exact ⟨.of_contexts rfl, .of_pool rfl⟩
  exact .of_claims (.tellSent s d) parts.1 (fun h => h.tellSent d) fun _ => .inl ⟨parts.2, by rw [station]⟩

theorem tellAbandoned (s : State) (d : DutyRef) : Calm s (s.tellAbandoned d) := by
  have station : (s.tellAbandoned d).station = s.station := tellAbandoned_only s d .station (by decide)
  have parts : PlacesStand s (s.tellAbandoned d) ∧ RunsStand s (s.tellAbandoned d) := by
    cases d with
    | replay d => exact ⟨.of_contexts (replayEnded_only s d .contexts (by decide)), replayEnded_runs s d⟩
    | gapreq i =>
      refine ⟨.of_contexts (requestAbandoned_only s i .contexts (by decide)), ?_⟩
      by_cases onWire : (s.tracker i).marker = .onWire
      · exact unlists (requestAbandoned_onWire onWire) afterAbandon_stands
      · have same : s.requestAbandoned i = s := if_neg onWire
        exact .of_pool (congrArg State.pool same)
    | data => exact dataEnded_places s
    | beacon => exact ⟨.of_contexts rfl, .of_pool rfl⟩
  exact .of_claims (.tellAbandoned s d) parts.1 (fun h => h.tellAbandoned d) fun _ => .inl ⟨parts.2, by rw [station]⟩

theorem tellCollision (s : State) (d : DutyRef) : Calm s (s.tellCollision d) := by
  have only := tellCollision_only s d
  have station : (s.tellCollision d).station = s.station := only .station (by decide)
  refine .of_claims (.tellCollision s d) (.of_contexts (only .contexts (by decide))) (fun h => h.tellCollision d)
    fun _ => .inl ⟨fun i => ?_, by rw [station]⟩
  rw [tellCollision_tracker]
  split
  · exact ⟨Iff.rfl, rfl, rfl, rfl, rfl⟩
  · exact .refl _

theorem readBackCells (s : State) (read : List (Option BurstCell)) : Calm s (s.readBackCells read) := by
  have frameEnds (c : Commitment) : Calm s (s.frameEnds c) :=
    (((Calm.of_only (withTrunk_only s _)).trans (.tellSent _ c.duty)).trans (.of_only (withSched_only _ _))).trans
      (.transmitterFree _)
  have collides (c : Commitment) : Calm s (s.collides c) := by
    have jam : Calm s s.startJam := .of_only (startJam_only s)
    unfold State.collides
    split
    · exact (jam.trans (.tellCollision _ c.duty)).trans (.of_only (withSched_only _ _))
    · have told : Calm s ((s.startJam.tellAbandoned c.duty).noteAbandon.toJamming) :=
        (jam.trans (.tellAbandoned _ c.duty)).trans (.of_only ((noteAbandon_only _).then (withSched_only _ _)))
      unfold State.abandon
      dsimp only
      split
      · exact told.trans (.muteRequest _)
      · exact told
  unfold State.readBackCells
  split
  · split
    · exact frameEnds _
    · exact collides _
    · exact .refl s
  · exact .refl s

theorem takeFrame {s t : State} {d : DutyRef} {f : Frame} (take : s.takeFrame d = some (f, t)) : Calm s t := by
  have only := takeFrame_only take
  have station : t.station = s.station := only .station (by decide)
  refine .of_claims (.takeFrame take) (.of_contexts (only .contexts (by decide))) (fun h => h.takeFrame take)
    fun _ => .inl ⟨?_, by rw [station]⟩
  cases d with
  | replay d =>
    obtain ⟨⟨k, u⟩, taken, eq⟩ := Option.map_eq_some_iff.mp take
    cases eq
    exact .of_pool (takeReplay_only taken .pool (by decide))
  | gapreq i =>
    obtain ⟨u, take, eq⟩ := Option.map_eq_some_iff.mp take
    cases eq
    simp only [State.takeRequest] at take
    split at take <;> cases take
    exact .change (i := i) (State.tracker_setTracker s i · _) ⟨Iff.rfl, rfl, rfl, rfl, rfl⟩
  | data =>
    obtain ⟨⟨k, u⟩, taken, eq⟩ := Option.map_eq_some_iff.mp take
    cases eq
    exact .of_pool (takeData_only taken .pool (by decide))
  | beacon =>
    simp only [State.takeFrame] at take
    split at take <;> cases take
    exact .refl s

theorem startCommitted (s : State) (c : Commitment) : Calm s (s.startCommitted c) := by
  unfold State.startCommitted
  split
  · exact .of_only (releaseCommitment_only s)
  · rename_i r take
    exact (takeFrame (t := r.2) take).trans (.of_only ((withTrunk_only _ _).then (withSched_only _ _)))

/-! ### Host commands -/

theorem acceptJoin {s : State} (off : s.station.state = .setup ∨ s.station.state = .ready) : Calm s s.acceptJoin := by
  have only := acceptJoin_only s
  have inactive : ¬ s.station.state = .active := by rcases off with h | h <;> rw [h] <;> exact nofun
  have stn : s.acceptJoin.stn = s.stn ∧ ¬ s.acceptJoin.station.state = .active ∧ PlacesStand s s.acceptJoin ∧
      ∀ o, (s.acceptJoin.ctx o).trackerHeld = (s.ctx o).trackerHeld := by
    unfold State.acceptJoin
    dsimp only
    split
    · refine ⟨rfl, nofun, fun o => ?_, fun o => ?_⟩
      · rw [State.ctx_setCtx]
        split
        · rename_i own
          exact own ▸ ⟨rfl, fun other => absurd rfl other⟩
        · exact ⟨rfl, fun _ => ⟨rfl, rfl⟩⟩
      · rw [State.ctx_setCtx]
        split
        · rename_i own
          rw [own]
        · rfl
    · exact ⟨rfl, nofun, fun o => ⟨(startSilenceTimers_ctx _ o).1, fun _ => ⟨(startSilenceTimers_ctx _ o).2.1,
        (startSilenceTimers_ctx _ o).2.2.1⟩⟩, fun o => (startSilenceTimers_ctx _ o).2.2.2⟩
  exact .of_station stn.1 stn.2.2.1 stn.2.2.2 (only .store (by decide)) (only .pool (by decide)) (iff_of_false stn.2.1 inactive)

theorem execute (s : State) (c : Command) (args : List Word) : Calm s (s.execute c args).after := by
  have only := execute_only s c args
  cases c with
  | set =>
    simp only [State.execute, State.setField]
    split
    · exact .of_station rfl (.of_contexts rfl) (fun _ => rfl) rfl rfl Iff.rfl
    · exact .refl s
  | join =>
    simp only [State.execute, State.joinTrunk]
    split
    · rename_i off
      exact .acceptJoin off
    · exact .refl s
  | leave =>
    simp only [State.execute, State.leaveTrunk]
    split
    · exact .acceptLeave s
    · exact .refl s
  | recover =>
    simp only [State.execute, State.recoverStation]
    split
    · rename_i muted
      exact .of_station rfl (.of_contexts rfl) (fun _ => rfl) rfl rfl
        (iff_of_false (by exact nofun) (by rw [muted]; exact nofun))
    · exact .refl s
  | discardHead =>
    simp only [State.execute, State.discard]
    split
    · exact .refl s
    · exact .dropHead s
  | _ => exact .of_only only

end Calm

/-! ### What a command does to contexts and runs -/

/-- Calm changes, frames at the table, runs given up, and records made of synchronised contexts, one after another. -/
inductive Table : State → State → Prop
  | calm {s t : State} (h : Calm s t) : Table s t
  | trans {s t u : State} : Table s t → Table t u → Table s u
  | frame (s : State) (m : Message) : Table s (s.classify m)
  | beacon (s : State) (o : Station) (epoch : Epoch) (nextSeq : SeqNum) : Table s (s.takeBeacon o epoch nextSeq)
  | giveUp (s : State) (i : Fin 8) : Table s (s.giveUpRun i)
  | advance (s : State) (o : Station) (k : Nat) (synced : (s.ctx o).isSynced = true) (some : 1 ≤ k) (few : k ≤ 32767)
      (reach : k ≤ (s.ctx o).extent)
      (past : ∀ x ∈ s.store.peer, x.pins.due = true → x.key.origin = o → x.key.epoch = (s.ctx o).epoch →
        k ≤ offset (s.ctx o).nextDue x.key.seq) : Table s (s.advance o ((s.ctx o).nextDue + BitVec.ofNat 16 k))
  | restart (s : State) (o : Station) (synced : (s.ctx o).isSynced = true) : Table s (s.advanceRestart o)

namespace Table

theorem refl (s : State) : Table s s := .calm (.refl s)

theorem distribute (s : State) (f : Frame) : Table s (s.distribute f) := by
  cases f with
  | data origin epoch seq payload =>
    simp only [State.distribute, State.dataFrame]
    exact (frame _ _).trans (.calm (.cancelKey _ _))
  | replay origin epoch seq replayer payload =>
    simp only [State.distribute, State.replayFrame]
    split
    · exact .calm ((Calm.hearReplay _ _).trans (.cancelKey _ _))
    · exact (frame _ _).trans (.calm ((Calm.hearReplay _ _).trans (.cancelKey _ _)))
  | gapreq requester origin epoch first count =>
    exact .calm ((Calm.hearGapreq _ _ _ _ _).trans (.answerGapreq _ _ _ _ _ _))
  | beacon sender epoch nextSeq => exact .beacon _ _ _ _

theorem takeDecision (s : State) (d : Decision) : Table s (s.takeDecision d) := by
  unfold State.takeDecision
  split
  · exact .refl s
  · have noted : Calm s ((s.count .rxError).raise .rxError) := .of_only ((count_only _ _).then (raise_only _ _))
    unfold State.frameError
    dsimp only
    split
    · exact .calm (noted.trans (.startListenTimer _))
    · exact .calm noted
  · rename_i f
    unfold State.goodFrame
    split
    · have raised : Calm s (s.raise .clash) := .of_only (raise_only _ _)
      unfold State.clash
      split
      · exact .calm (raised.trans (.startListenTimer _))
      · exact .calm (raised.trans (.enterMuted _))
      · exact .calm raised
      · exact .refl s
      · exact .refl s
      · exact .refl s
    · exact (Table.calm ((Calm.of_only (count_only s .rxGood)).trans (.heard _ _))).trans (.distribute _ _)

theorem burstEnds (s : State) (cells : List BurstCell) : Table s (s.burstEnds cells) := by
  have ends (path : PathState) : Calm s (s.burstOver path) := .of_only (burstOver_only _ _)
  unfold State.burstEnds
  split
  · exact .refl s
  · split
    · exact .refl s
    · exact .calm (ends .off)
    · exact (Table.calm (ends .waiting)).trans (.takeDecision _ _)

end Table

theorem takeDataWord_runs (s : State) (w : Word) (wend : Bool) : RunsStand s (s.takeDataWord w wend) := by
  have plain {bs : List Block} {s t : State} (only : Only bs s t) (out : Block.pool ∉ bs := by decide) : RunsStand s t :=
    .of_pool (only .pool out)
  have rejects (s : State) : RunsStand s (s.rejectSubmission wend) :=
    (RunsStand.applyStore s s.store.release.2).trans (plain ((raise_only _ _).then (withSubmission_only _ _)))
  have completes (s : State) : RunsStand s s.completeMessage := by
    have claim := (RunsStand.applyStore s (s.store.complete s.nextKey s.completionPins).2).trans
      (plain (withSubmission_only _
        { (s.applyStore (s.store.complete s.nextKey s.completionPins).2).submission with asm := .idle }))
    unfold State.completeMessage
    dsimp only
    split
    · exact claim.trans (plain (withSubmission_only _ _))
    · exact claim.trans (plain (raise_only _ _))
    · exact claim
  unfold State.takeDataWord
  split
  · unfold State.wordZero
    split
    · exact plain (raise_only _ _)
    · split
      · exact plain ((raise_only _ _).then (withSubmission_only _ _))
      · split
        · exact (RunsStand.applyStore s _).trans (plain (withSubmission_only _ _))
        · exact .refl s
  · have written : RunsStand s ((s.withStore (s.store.writeReserved (s.submission.bytesOf w))).withSubmission
        { s.submission with taken := s.submission.taken + 1 }) := .of_pool rfl
    unfold State.payloadWord
    dsimp only
    split
    · split
      · exact written.trans (rejects _)
      · exact written
    · split
      · exact written.trans (completes _)
      · exact written.trans (plain (withSubmission_only _ _))
  · exact rejects s
  · split
    · exact plain (withSubmission_only _ _)
    · exact .refl s

/-- A data word touches the own share alone (R112 to R116). -/
theorem Calm.takeDataWord {s : State} (w : Word) (wend : Bool) (sound : TrackersSound s → TrackersSound (s.takeDataWord w wend)) :
    Calm s (s.takeDataWord w wend) := by
  have only := takeDataWord_only s w wend
  have station := takeDataWord_station s w wend
  have peer : (s.takeDataWord w wend).store.peer = s.store.peer ∧
      ((∀ e ∈ s.store.own, e.key.origin = s.stn) → ∀ e ∈ (s.takeDataWord w wend).store.own, e.key.origin = s.stn) := by
    cases takeDataWord_taken s w wend with
    | dropped store => exact ⟨by rw [store], by rw [store]; exact id⟩
    | between store => exact ⟨by rw [store], by rw [store]; exact id⟩
    | starts st reserve _ _ store =>
      obtain ⟨-, -, peer, sub, -⟩ := reserve_kept reserve
      exact ⟨by rw [store, peer], fun own e mem => own e (sub.subset (by rwa [store] at mem))⟩
    | collects _ store => exact ⟨by rw [store]; rfl, by rw [store]; exact id⟩
    | awaits _ store => exact ⟨by rw [store]; rfl, by rw [store]; exact id⟩
    | rejects _ store => exact ⟨by rw [store], by rw [store]; exact id⟩
    | completes _ _ answer st claim store =>
      rcases complete_cases claim with ⟨-, -, eq⟩ | ⟨-, -, -, eq⟩ | ⟨bytes, -, -, -, eq⟩
      · exact ⟨by rw [store, eq]; rfl, by rw [store, eq]; exact id⟩
      · exact ⟨by rw [store, eq]; rfl, by rw [store, eq]; exact id⟩
      · refine ⟨by rw [store, eq]; rfl, fun own e mem => ?_⟩
        rw [store, eq] at mem
        rcases List.mem_append.mp mem with old | new
        · exact own e old
        · rw [List.mem_singleton.mp new]
          rfl
  refine ⟨congrArg StationControl.stn station, .of_contexts (only .contexts (by decide)), by rw [peer.1], peer.2, ?_, sound,
    fun _ => .inl ⟨?_, by rw [station]⟩⟩
  · intro e mem due
    rw [peer.1] at mem
    exact ⟨e, mem, rfl, due⟩
  · exact takeDataWord_runs s w wend

/-- Commands that are no reset, no turn of the Delivery Engine and no entry to ACTIVE. -/
def isPlain : Instr → Bool
  | .masterReset | .mrstRelease _ _ | .partialReset | .deliveryTurn | .listenTimerRunsOut => false
  | _ => true

theorem exec_table {c : Instr} {s t : State} (e : exec c s = .next t) (plain : isPlain c = true) : Table s t := by
  have only := only_of_exec e
  have sound : TrackersSound s → TrackersSound t := trackersSound_exec e
  by_cases host : isHostWord c = true
  · exact hostWord_keeps (I := Table s) (fun u v only h => h.trans (.calm (.of_only only)))
      (fun u c args _ h => h.trans (.calm (.execute u c args))) host e (.refl s)
  cases c with
  | dataWord w wend =>
    simp only [exec, execDataWord] at e
    split at e
    · exact Host.Outcome.next.inj e ▸ .refl s
    · split at e
      · have same := Host.Outcome.next.inj e
        rw [← same] at sound ⊢
        exact .calm (.takeDataWord w wend sound)
      · exact Host.Outcome.next.inj e ▸ .calm (.of_only (raise_only _ _))
  | deliveryTake =>
    simp only [exec, execDeliveryTake] at e
    split at e
    · exact Host.Outcome.next.inj e ▸ .calm (.of_only (putOut_only _ _ _))
    · rw [← Host.Outcome.next.inj e, State.takeDelivery]
      split
      · exact .calm (.of_only ((putOut_only _ _ _).then (raise_only _ _)))
      · dsimp only
        split
        · exact .calm ((Calm.of_only (putOut_only _ _ _)).trans (.dropHead _))
        · exact .calm (.of_only ((putOut_only _ _ _).then (withDelivery_only _ _)))
  | selectionCommit =>
    simp only [exec, execSelectionCommit] at e
    split at e
    · split at e
      · rw [← Host.Outcome.next.inj e, State.commit]
        dsimp only
        split
        · exact .calm ((Calm.of_only (withSched_only _ _)).trans (.startCommitted _ _))
        · exact .calm (.of_only (withSched_only _ _))
      · exact Host.Outcome.next.inj e ▸ .refl s
    · exact Host.Outcome.next.inj e ▸ .refl s
  | holdoffRunsOut =>
    simp only [exec, execHoldoffRunsOut] at e
    split at e
    · split at e
      · exact Host.Outcome.next.inj e ▸ .calm (.startCommitted _ _)
      · exact Host.Outcome.next.inj e ▸ .refl s
    · exact Host.Outcome.next.inj e ▸ .refl s
  | frameEnd read => exact Host.Outcome.next.inj e ▸ .calm (.readBackCells s read)
  | collision read => exact Host.Outcome.next.inj e ▸ .calm (.readBackCells s read)
  | jamEnd =>
    simp only [exec, execJamEnd] at e
    split at e
    · exact Host.Outcome.next.inj e ▸ .calm ((Calm.of_only (withSched_only _ _)).trans (.transmitterFree _))
    · exact Host.Outcome.next.inj e ▸ .refl s
  | frameError cells | clash cells | rxData cells | rxReplay cells | rxGapreq cells | rxBeacon cells =>
    exact Host.Outcome.next.inj e ▸ .burstEnds s cells
  | requestDelayRunsOut i =>
    have only' : Only [.pool] s t := only
    have station : t.station = s.station := only' .station (by decide)
    refine .calm (.of_claims (.of_plain only') (.of_contexts (only' .contexts (by decide))) sound fun _ => .inl ⟨?_, by rw [station]⟩)
    simp only [exec, execRequestDelayRunsOut] at e
    split at e
    · rw [← Host.Outcome.next.inj e]
      exact .change (i := i) (x := { s.tracker i with timer := .stopped, marker := .pending })
        (fun j => by rw [State.tracker_setRequests, State.tracker_setTracker]) ⟨Iff.rfl, rfl, rfl, rfl, rfl⟩
    · exact Host.Outcome.next.inj e ▸ .refl s
    · exact Host.Outcome.next.inj e ▸ .refl s
  | repairTimeoutRunsOut i =>
    simp only [exec, execRepairTimeoutRunsOut] at e
    split at e
    · rename_i running
      split at e
      · have same := Host.Outcome.next.inj e
        have busy (h : TrackersSound s) : (s.tracker i).state ≠ .free := fun free => by
          have stopped := (h.consistent i).of_free free
          rw [running] at stopped
          cases stopped.1
        rw [← same] at sound ⊢
        have only' := setTracker_only s i
          { s.tracker i with state := .delay, timer := .requestDelay (s.requestDelay (s.tracker i).origin) }
        exact .calm (.of_claims (.of_plain only') (.of_contexts (only' .contexts (by decide))) sound fun h => .inl
          ⟨.change (State.tracker_setTracker s i · _) ⟨iff_of_false (by exact nofun) (busy h), rfl, rfl, rfl, rfl⟩, Iff.rfl⟩)
      · exact Host.Outcome.next.inj e ▸ .giveUp s i
    · exact Host.Outcome.next.inj e ▸ .refl s
    · exact Host.Outcome.next.inj e ▸ .refl s
  | silenceTimerRunsOut n =>
    simp only [exec, execSilenceTimerRunsOut] at e
    split at e
    · rw [← Host.Outcome.next.inj e]
      refine .calm (Calm.trans (t := s.setCtx n { s.ctx n with silent := true, silenceTimer := none })
        (.of_station rfl (fun o => ?_) (fun o => ?_) rfl rfl Iff.rfl) (.of_only (raise_only _ _)))
      · rw [State.ctx_setCtx]
        split
        · rename_i eq
          exact eq ▸ ⟨rfl, fun _ => ⟨rfl, rfl⟩⟩
        · exact ⟨rfl, fun _ => ⟨rfl, rfl⟩⟩
      · rw [State.ctx_setCtx]
        split
        · rename_i eq
          rw [eq]
        · rfl
    · exact Host.Outcome.next.inj e ▸ .refl s
  | _ => first
    | exact absurd rfl host
    | exact absurd plain Bool.false_ne_true
    | exact .calm (.of_only only (by simp [blocks]))

end Sys2Proof.Machine
end

section
/-! The contexts stay within their bounds, and DUE within [next-due, horizon] (O11). -/

open Sys2Proof

namespace Sys2Proof.Machine

set_option Elab.async false

/-! ### Bounds in the numbers of the origin (R24) -/

theorem largerOfZero_toNat (n : SeqNum) {k : Nat} (small : k < 65536) : (largerOfZero n k).toNat = n.toNat - k := by
  unfold largerOfZero
  split
  · show 0 = _
    omega
  · bv_omega

/-- Which of two numbers is after the other, by their offsets. -/
theorem after_iff {d x y : SeqNum} (less : (x - d).toNat ≤ (y - d).toNat + 32767) (more : (y - d).toNat ≤ (x - d).toNat + 32767) :
    after x y = true ↔ (y - d).toNat < (x - d).toNat := by
  have difference : x - y = (x - d) - (y - d) := by bv_omega
  unfold after
  rw [difference]
  generalize x - d = a at *
  generalize y - d = b at *
  simp only [Bool.and_eq_true, decide_eq_true_eq, BitVec.toNat_sub]
  omega

theorem lt_of_after {d x y : SeqNum} (near : (y - d).toNat ≤ (x - d).toNat + 32768) (later : after x y = true)
    (reach : (x - d).toNat ≤ (y - d).toNat + 32768) : (y - d).toNat < (x - d).toNat := by
  have difference : x - y = (x - d) - (y - d) := by bv_omega
  unfold after at later
  rw [difference] at later
  generalize x - d = a at *
  generalize y - d = b at *
  simp only [Bool.and_eq_true, decide_eq_true_eq, BitVec.toNat_sub] at later
  omega

theorem after_succ (x y : SeqNum) : after (x + 1) (y + 1) = after x y := by
  unfold after
  rw [show x + 1 - (y + 1) = x - y by bv_omega]

theorem succ_offset {d n : SeqNum} (h : (n - d).toNat < 65535) : (n + 1 - d).toNat = (n - d).toNat + 1 := by bv_omega

theorem forward_offset {d : SeqNum} {k : Nat} (h : k < 65536) : (d + BitVec.ofNat 16 k - d).toNat = k := by bv_omega

theorem sub_offset {d n : SeqNum} {k : Nat} (h : k ≤ (n - d).toNat) :
    (n - (d + BitVec.ofNat 16 k)).toNat = (n - d).toNat - k := by bv_omega

namespace Context.Bounded

variable {c : Context}

theorem of_place {d : Context} (place : d.place = c.place) (h : c.Bounded) : d.Bounded := by
  simp only [Context.place, Prod.mk.injEq] at place
  obtain ⟨-, due, horizon, floor⟩ := place
  obtain ⟨a, b, e, f⟩ := h
  exact ⟨by rwa [due, floor], by rwa [due, horizon], by rwa [due, floor, horizon], by rwa [due, floor, horizon]⟩

/-- How many numbers the context holds. -/
theorem extent_eq (h : c.Bounded) : c.extent = (c.horizon + 1 - c.nextDue).toNat := if_pos h.horizon

/-- The base of a bounded context is its floor (R24). -/
theorem base_eq (h : c.Bounded) : (c.base - c.nextDue).toNat = (c.lossFloor - c.nextDue).toNat := by
  have floor := h.floor
  unfold offset at floor
  have start : (c.nextDue - c.nextDue).toNat = 0 := by rw [BitVec.sub_self]; rfl
  have order := after_iff (d := c.nextDue) (x := c.lossFloor) (y := c.nextDue) (by omega) (by omega)
  unfold Context.base later
  split
  · rfl
  · rename_i behind
    rw [order] at behind
    omega

/-- A context that starts at `n` and holds nothing. -/
theorem empty {n : SeqNum} (due : c.nextDue = n) (horizon : c.horizon = n - 1) (floor : c.lossFloor = n) : c.Bounded := by
  constructor <;> rw [due] <;> simp only [horizon, floor, offset] <;> bv_omega

/-- A context that starts at `n` and holds it alone. -/
theorem single {n : SeqNum} (due : c.nextDue = n) (horizon : c.horizon = n) (floor : c.lossFloor = n) : c.Bounded := by
  constructor <;> rw [due] <;> simp only [horizon, floor, offset] <;> bv_omega

/-- A context that starts at 0 and holds the numbers below `n` (R38). -/
theorem fromZero {n : SeqNum} {k : Nat} (few : n.toNat ≤ 32768) (short : k ≤ 64) (due : c.nextDue = 0) (horizon : c.horizon = n - 1)
    (floor : c.lossFloor.toNat = n.toNat - k) (reach : n.toNat - k ≤ 32767) : c.Bounded := by
  have start (m : SeqNum) : (m - 0).toNat = m.toNat := by bv_omega
  have ends : (n - 1 + 1 : SeqNum) = n := by bv_omega
  constructor <;> rw [due] <;> simp only [horizon, offset, start, ends, floor] <;> omega

/-- The later horizon of a number in the window (R33). -/
theorem extended (h : c.Bounded) {n : SeqNum} (near : (n - c.nextDue).toNat ≤ (c.lossFloor - c.nextDue).toNat + 63)
    (ahead : (n - c.nextDue).toNat < 32768) :
    (later c.horizon n + 1 - c.nextDue).toNat = max (c.horizon + 1 - c.nextDue).toNat ((n - c.nextDue).toNat + 1) := by
  obtain ⟨a, b, e, f⟩ := h
  unfold offset at a b e f
  have next := succ_offset (d := c.nextDue) (n := n) (by omega)
  have order := after_iff (d := c.nextDue) (x := n + 1) (y := c.horizon + 1) (by omega) (by omega)
  rw [after_succ, next] at order
  unfold later
  split
  · rename_i later
    rw [order] at later
    omega
  · rename_i later
    rw [order] at later
    omega

/-- A number in the window is taken in (R33). -/
theorem extend (h : c.Bounded) {n : SeqNum} (near : (n - c.nextDue).toNat ≤ (c.lossFloor - c.nextDue).toNat + 63)
    (ahead : (n - c.nextDue).toNat < 32768) : ({ c with horizon := later c.horizon n } : Context).Bounded := by
  have longer := h.extended near ahead
  obtain ⟨a, b, e, f⟩ := h
  unfold offset at a b e f
  constructor <;> simp only [offset, longer] <;> omega

/-- A number past the window is taken in, the floor following (R34). -/
theorem jump {n : SeqNum} (far : (c.lossFloor - c.nextDue).toNat + 63 < (n - c.nextDue).toNat)
    (ahead : (n - c.nextDue).toNat < 32768) : ({ c with lossFloor := n - 63, horizon := n } : Context).Bounded := by
  have next := succ_offset (d := c.nextDue) (n := n) (by omega)
  have back : (n - 63 - c.nextDue).toNat = (n - c.nextDue).toNat - 63 := by
    clear * - far
    bv_omega
  constructor <;> simp only [offset, next, back] <;> omega

/-- A horizon raised by a BEACON, the floor following past the window (R41). -/
theorem raise (h : c.Bounded) {n : SeqNum} (near : (n - c.nextDue).toNat ≤ 32767) (later : after n c.horizon = true) :
    ({ c with horizon := n, lossFloor := if offset c.nextDue c.base + 64 ≤ offset c.nextDue n then n - 63 else c.lossFloor } :
      Context).Bounded ∧ (c.horizon + 1 - c.nextDue).toNat ≤ (n + 1 - c.nextDue).toNat := by
  have base := h.base_eq
  obtain ⟨a, b, e, f⟩ := h
  unfold offset at a b e f ⊢
  rw [base]
  have next := succ_offset (d := c.nextDue) (n := n) (by omega)
  rw [← after_succ] at later
  have longer := lt_of_after (d := c.nextDue) (by omega) later (by omega)
  refine ⟨?_, Nat.le_of_lt longer⟩
  split
  · rename_i far
    have back : (n - 63 - c.nextDue).toNat = (n - c.nextDue).toNat - 63 := by
      clear * - far
      bv_omega
    constructor <;> simp only [offset, next, back] <;> omega
  · constructor <;> simp only [offset, next] <;> omega

/-- A restart by a frame (R37, R38). -/
theorem restartByFrame {n : SeqNum} (due : c.nextDue = (restartByFrame n).1) (horizon : c.horizon = n)
    (floor : c.lossFloor = (Machine.restartByFrame n).2) : c.Bounded ∧ offset c.nextDue n < c.extent := by
  unfold Machine.restartByFrame at due floor
  split at due
  · rename_i few
    rw [if_pos few] at floor
    have next : (n + 1).toNat = n.toNat + 1 := by bv_omega
    have bounded : c.Bounded := by
      refine .fromZero (n := n + 1) (k := 64) (by omega) (by decide) due (by rw [horizon]; bv_omega) ?_ (by omega)
      rw [floor, largerOfZero_toNat _ (by decide), next]
      omega
    refine ⟨bounded, ?_⟩
    rw [bounded.extent_eq, due, horizon]
    unfold offset
    bv_omega
  · rename_i many
    rw [if_neg many] at floor
    have bounded : c.Bounded := .single due horizon floor
    refine ⟨bounded, ?_⟩
    rw [bounded.extent_eq, due, horizon]
    unfold offset
    bv_omega

/-- A restart by a BEACON (R37, R38). -/
theorem restartByBeacon {n : SeqNum} (due : c.nextDue = (restartByBeacon n).1) (horizon : c.horizon = n - 1)
    (floor : c.lossFloor = (Machine.restartByBeacon n).2) : c.Bounded := by
  unfold Machine.restartByBeacon at due floor
  split at due
  · rename_i few
    rw [if_pos few] at floor
    exact .fromZero (k := 64) few (by decide) due horizon (by rw [floor, largerOfZero_toNat _ (by decide)]) (by omega)
  · rename_i many
    rw [if_neg many] at floor
    exact .empty due horizon floor

/-- The floor of an advanced context (R43). -/
theorem advanced_floor (h : c.Bounded) {k : Nat} (small : k ≤ 32767) :
    (later (c.nextDue + BitVec.ofNat 16 k) c.lossFloor - (c.nextDue + BitVec.ofNat 16 k)).toNat =
      (c.lossFloor - c.nextDue).toNat - k := by
  have floor := h.floor
  unfold offset at floor
  have forward := forward_offset (d := c.nextDue) (k := k) (by omega)
  have order := after_iff (d := c.nextDue) (x := c.lossFloor) (y := c.nextDue + BitVec.ofNat 16 k) (by omega) (by omega)
  rw [forward] at order
  unfold later
  split
  · rename_i later
    rw [order] at later
    exact sub_offset (Nat.le_of_lt later)
  · rename_i later
    rw [order] at later
    rw [BitVec.sub_self]
    show 0 = _
    omega

theorem advanceTo (h : c.Bounded) {k : Nat} (small : k ≤ 32767) (reach : k ≤ (c.horizon + 1 - c.nextDue).toNat) :
    (c.advanceTo (c.nextDue + BitVec.ofNat 16 k)).Bounded := by
  have floor := h.advanced_floor small
  obtain ⟨a, b, e, f⟩ := h
  unfold offset at a b e f
  have horizon : (c.horizon + 1 - (c.nextDue + BitVec.ofNat 16 k)).toNat = (c.horizon + 1 - c.nextDue).toNat - k := sub_offset reach
  constructor <;> simp only [Context.advanceTo, offset, horizon, floor] <;> omega

/-- The floor after a give-up (R42). -/
theorem giveUpFloor (h : c.Bounded) (value : SeqNum) : (c.giveUpFloor value - c.nextDue).toNat ≤ 32767 ∧
    (c.lossFloor - c.nextDue).toNat ≤ (c.giveUpFloor value - c.nextDue).toNat ∧
    (c.giveUpFloor value - c.nextDue).toNat ≤ (c.horizon + 1 - c.nextDue).toNat := by
  have extent := h.extent_eq
  obtain ⟨a, b, e, f⟩ := h
  unfold offset at a b e f
  unfold Context.giveUpFloor
  dsimp only
  rw [extent]
  split
  · split
    · rename_i less
      unfold offset at less ⊢
      have bound : min (value - c.nextDue).toNat (min (c.horizon + 1 - c.nextDue).toNat 32767) ≤ 32767 := by omega
      have bound' : min (value - c.nextDue).toNat (min (c.horizon + 1 - c.nextDue).toNat 32767) ≤ (c.horizon + 1 - c.nextDue).toNat := by
        omega
      generalize min (value - c.nextDue).toNat (min (c.horizon + 1 - c.nextDue).toNat 32767) = m at less bound bound' ⊢
      have := forward_offset (d := c.nextDue) (k := m) (by omega)
      omega
    · exact ⟨a, Nat.le_refl _, e⟩
  · exact ⟨a, Nat.le_refl _, e⟩

/-- A run given up (R42). -/
theorem giveUp (h : c.Bounded) (value : SeqNum) : ({ c with lossFloor := c.giveUpFloor value } : Context).Bounded := by
  obtain ⟨small, more, reach⟩ := h.giveUpFloor value
  obtain ⟨a, b, e, f⟩ := h
  unfold offset at a b e f
  exact ⟨small, b, reach, by simp only [offset]; omega⟩

end Context.Bounded

/-! ### Where the contexts of the others stand -/

/-- The contexts but that of `o` differ in tracker-held flags, and synchronised ones between STEADY and GAPPED. -/
def SettlesBut (o : Station) (s t : State) : Prop := ∀ p : Station, p ≠ o →
  t.ctx p = { s.ctx p with state := (t.ctx p).state, trackerHeld := (t.ctx p).trackerHeld } ∧
  (t.ctx p).isSynced = (s.ctx p).isSynced ∧ ((s.ctx p).isSynced = false → (t.ctx p).state = (s.ctx p).state)

namespace SettlesBut

variable {s t u : State} {o : Station}

theorem of_settles (h : Settles s t) : SettlesBut o s t := fun p _ => ⟨h.ctx p, h.synced p, h.other p⟩

theorem of_ctx (h : ∀ p, p ≠ o → t.ctx p = s.ctx p) : SettlesBut o s t := fun p other => by
  rw [h p other]
  exact ⟨rfl, rfl, fun _ => rfl⟩

theorem setCtx (s : State) (o : Station) (c : Context) : SettlesBut o s (s.setCtx o c) := .of_ctx fun p other => by
  rw [State.ctx_setCtx, if_neg other]

theorem beginRestart (s : State) (o : Station) (epoch : Epoch) (nextDue horizon floor : SeqNum) :
    SettlesBut o s (s.beginRestart o epoch nextDue horizon floor) := .of_ctx fun p other => by
  rw [beginRestart_ctx, if_neg other]

theorem trans (h : SettlesBut o s t) (k : SettlesBut o t u) : SettlesBut o s u := fun p other => by
  obtain ⟨ctx, synced, state⟩ := h p other
  obtain ⟨ctx', synced', state'⟩ := k p other
  rw [ctx] at ctx'
  exact ⟨ctx', synced'.trans synced, fun off => (state' (synced.trans off)).trans (state off)⟩

end SettlesBut

/-- The number of a key lies in [next-due, horizon] of the context, and its epoch is the one followed (R25). -/
def Context.within (c : Context) (k : Key) : Prop := k.epoch = c.epoch ∧ offset c.nextDue k.seq < c.extent

theorem Context.within_congr {c d : Context} (place : d.place = c.place) (k : Key) : d.within k ↔ c.within k := by
  simp only [Context.place, Prod.mk.injEq] at place
  obtain ⟨epoch, due, horizon, -⟩ := place
  rw [Context.within, Context.within, Context.extent, Context.extent, epoch, due, horizon]

theorem Context.not_synced_of_unsynced {c : Context} (h : c.state = .unsynced) : c.isSynced = false := by
  rw [Context.isSynced, h]; rfl

theorem Context.not_synced_of_own {c : Context} (h : c.state = .own) : c.isSynced = false := by
  rw [Context.isSynced, h]; rfl

namespace ContextsSound

variable {s w : State}

theorem not_own (h : ContextsSound s) {o : Station} (synced : (s.ctx o).isSynced = true) : o ≠ s.stn := fun own => by
  rw [Context.not_synced_of_own ((h.ownState o).mpr own)] at synced
  cases synced

/-- A change at the context of `o` that leaves it within its bounds, and every entry with DUE where it may carry it. -/
theorem placed (h : ContextsSound s) {o : Station} (others : SettlesBut o s w) (stn : w.stn = s.stn) (peer : o ≠ s.stn)
    (synced : (w.ctx o).isSynced = true) (bounded : (w.ctx o).Bounded)
    (due : ∀ e ∈ w.store.peer, e.pins.due = true →
      if e.key.origin = o then (w.ctx o).within e.key else ∃ x ∈ s.store.peer, x.key = e.key ∧ x.pins.due = true) :
    ContextsSound w := by
  have place {p : Station} (other : p ≠ o) : (w.ctx p).place = (s.ctx p).place := by
    rw [(others p other).1]
    rfl
  refine ⟨fun p => ?_, fun p unsynced => ?_, fun p held => ?_, fun e mem carried => ?_⟩
  · rw [stn]
    by_cases eq : p = o
    · subst eq
      refine iff_of_false (fun own => ?_) peer
      rw [Context.not_synced_of_own own] at synced
      cases synced
    · obtain ⟨-, same, state⟩ := others p eq
      cases held : (s.ctx p).isSynced with
      | true =>
        refine iff_of_false (fun own => ?_) (h.not_own held)
        rw [held, Context.not_synced_of_own own] at same
        cases same
      | false => rw [state held]; exact h.ownState p
  · have eq : p ≠ o := fun eq => by
      rw [eq] at unsynced
      rw [Context.not_synced_of_unsynced unsynced] at synced
      cases synced
    obtain ⟨ctx, same, state⟩ := others p eq
    rw [Context.not_synced_of_unsynced unsynced] at same
    rw [state same.symm] at unsynced
    rw [ctx]
    exact h.unsynced p unsynced
  · by_cases eq : p = o
    · exact eq ▸ bounded
    · exact (h.bounded p ((others p eq).2.1.symm.trans held)).of_place (place eq)
  · have here := due e mem carried
    by_cases eq : e.key.origin = o
    · rw [if_pos eq] at here
      rw [eq]
      exact ⟨synced, here⟩
    · rw [if_neg eq] at here
      obtain ⟨x, there, key, due⟩ := here
      have old := h.due x there due
      rw [key] at old
      exact ⟨(others _ eq).2.1.trans old.1, (Context.within_congr (place eq) e.key).mpr old.2⟩

/-- Contexts decided afresh, with DUE in no further entry. -/
theorem settled (h : ContextsSound s) (settles : Settles s w) (stn : w.stn = s.stn) (due : DueFrom s.store w.store) :
    ContextsSound w := by
  refine ⟨fun p => ?_, fun p unsynced => ?_, fun p held => ?_, fun e mem carried => ?_⟩
  · rw [stn]
    cases held : (s.ctx p).isSynced with
    | true =>
      refine iff_of_false (fun own => ?_) (h.not_own held)
      have same := settles.synced p
      rw [held, Context.not_synced_of_own own] at same
      cases same
    | false => rw [settles.other p held]; exact h.ownState p
  · have same := settles.synced p
    rw [Context.not_synced_of_unsynced unsynced] at same
    rw [settles.other p same.symm] at unsynced
    rw [settles.ctx p]
    exact h.unsynced p unsynced
  · exact (h.bounded p ((settles.synced p).symm.trans held)).of_place (settles.place p)
  · obtain ⟨x, there, key, due⟩ := due e mem carried
    have old := h.due x there due
    rw [key] at old
    exact ⟨(settles.synced _).trans old.1, (Context.within_congr (settles.place _) e.key).mpr old.2⟩

/-- A calm change. -/
theorem calm (h : ContextsSound s) (calm : Calm s w) : ContextsSound w := by
  have state (p : Station) : (w.ctx p).state = (s.ctx p).state := (calm.places p).1
  have synced (p : Station) : (w.ctx p).isSynced = (s.ctx p).isSynced := by rw [Context.isSynced, state]; rfl
  have place {p : Station} (held : (s.ctx p).isSynced = true) := ((calm.places p).2 (h.not_own held)).1
  refine ⟨fun p => ?_, fun p unsynced => ?_, fun p held => ?_, fun e mem carried => ?_⟩
  · rw [state, calm.stn]
    exact h.ownState p
  · rw [state] at unsynced
    have peer : p ≠ s.stn := fun own => by
      rw [(h.ownState p).mpr own] at unsynced
      cases unsynced
    obtain ⟨same, restart⟩ := (calm.places p).2 peer
    obtain ⟨epoch, due, horizon, floor, clear⟩ := h.unsynced p unsynced
    simp only [Context.place, Prod.mk.injEq] at same
    obtain ⟨epoch', due', horizon', floor'⟩ := same
    exact ⟨epoch'.trans epoch, due'.trans due, horizon'.trans horizon, floor'.trans floor, restart.trans clear⟩
  · rw [synced] at held
    exact (h.bounded p held).of_place (place held)
  · obtain ⟨x, there, key, due⟩ := calm.due e mem carried
    have old := h.due x there due
    rw [key] at old
    exact ⟨(synced _).trans old.1, (Context.within_congr (place old.1) e.key).mpr old.2⟩

end ContextsSound

/-! ### Frames and BEACONs of the others -/

/-- What the insert claim leaves in the peer share was there, or is the frame's entry. -/
theorem Inserts.peer_from {s t : State} {e : Entry} (h : Inserts s t e) (peer : e.key.origin ≠ s.stn) :
    ∀ x ∈ t.store.peer, x ∈ s.store.peer ∨ x = e := by
  rw [h.store]
  rcases insert_peer_kept peer (st := s.store) (share := s.setup.ownShare) with same | ⟨-, kept, eq, sub, -⟩
  · rw [same]
    exact fun x mem => .inl mem
  · rw [eq]
    intro x mem
    rcases List.mem_append.mp mem with old | new
    · exact .inl (sub.subset old)
    · exact .inr (List.mem_singleton.mp new)

namespace ContextsSound

variable {s : State}

/-- What a frame's insert with DUE leaves of the entries that carry it. -/
theorem due_of_insert (h : ContextsSound s) {u w : State} {e : Entry} {o : Station} {c : Context} (inserts : Inserts u w e)
    (origin : e.key.origin = o) (peer : o ≠ u.stn) (from' : DueFrom s.store u.store) (new : c.within e.key)
    (old : ∀ x ∈ u.store.peer, x.pins.due = true → x.key.origin = o → (s.ctx o).within x.key → c.within x.key) :
    ∀ x ∈ w.store.peer, x.pins.due = true →
      if x.key.origin = o then c.within x.key else ∃ y ∈ s.store.peer, y.key = x.key ∧ y.pins.due = true := by
  intro x mem due
  rcases inserts.peer_from (origin ▸ peer) x mem with there | rfl
  · obtain ⟨y, before, key, was⟩ := from' x there due
    split
    · rename_i eq
      have here := (h.due y before was).2
      rw [key, eq] at here
      exact old x there due eq here
    · exact ⟨y, before, key, was⟩
  · rw [if_pos origin]
    exact new

/-- Entries with DUE belong to synchronised contexts (R25). -/
theorem no_due_unsynced (h : ContextsSound s) {o : Station} (unsynced : (s.ctx o).isSynced = false) :
    ∀ x ∈ s.store.peer, x.pins.due = true → x.key.origin ≠ o := fun x mem due eq => by
  have held := (h.due x mem due).1
  rw [eq, unsynced] at held
  cases held

end ContextsSound

end Sys2Proof.Machine
end

section
/-! The contexts within their bounds, by each command (O11). -/

open Sys2Proof

namespace Sys2Proof.Machine

set_option Elab.async false

theorem Settles.at_set {u w : State} {o : Station} {c : Context} (h : Settles (u.setCtx o c) w) :
    SettlesBut o u w ∧ (w.ctx o).isSynced = c.isSynced ∧ (w.ctx o).place = c.place := by
  refine ⟨(SettlesBut.setCtx u o c).trans (.of_settles h), ?_, ?_⟩
  · rw [h.synced, State.ctx_setCtx, if_pos rfl]
  · rw [h.place, State.ctx_setCtx, if_pos rfl]

/-- A context that is neither UNSYNCED nor OWN is synchronised. -/
theorem Context.synced_of {c : Context} (some : c.state ≠ .unsynced) (peer : c.state ≠ .own) : c.isSynced = true := by
  rcases state : c.state with _ | _ | _ | _
  · exact absurd state some
  · simp [Context.isSynced, state]
  · simp [Context.isSynced, state]
  · exact absurd state peer

/-- What a frame comes to at its context (Table 2.4). -/
inductive Classified (s : State) (m : Message) : State → Prop
  | useless : Classified s m s
  | stale : Classified s m (s.count .rxStale)
  | sync (unsynced : (s.ctx m.key.origin).state = .unsynced) : Classified s m (s.syncFrame m)
  | restart (synced : (s.ctx m.key.origin).isSynced = true) (new : newer m.key.epoch (s.ctx m.key.origin).epoch = true) :
      Classified s m (s.restartFrame m)
  | behind (synced : (s.ctx m.key.origin).isSynced = true) (mine : m.key.epoch = (s.ctx m.key.origin).epoch)
      (behind : 32768 ≤ (m.key.seq - (s.ctx m.key.origin).nextDue).toNat) : Classified s m (s.behindFrame m)
  | window (synced : (s.ctx m.key.origin).isSynced = true) (mine : m.key.epoch = (s.ctx m.key.origin).epoch)
      (absent : ∀ x ∈ s.store.own ++ s.store.peer, x.key ≠ m.key)
      (near : (m.key.seq - (s.ctx m.key.origin).nextDue).toNat ≤
        ((s.ctx m.key.origin).lossFloor - (s.ctx m.key.origin).nextDue).toNat + 63)
      (ahead : (m.key.seq - (s.ctx m.key.origin).nextDue).toNat < 32768) : Classified s m (s.windowFrame m)
  | far (synced : (s.ctx m.key.origin).isSynced = true) (mine : m.key.epoch = (s.ctx m.key.origin).epoch)
      (absent : ∀ x ∈ s.store.own ++ s.store.peer, x.key ≠ m.key)
      (far : ((s.ctx m.key.origin).lossFloor - (s.ctx m.key.origin).nextDue).toNat + 63 <
        (m.key.seq - (s.ctx m.key.origin).nextDue).toNat)
      (ahead : (m.key.seq - (s.ctx m.key.origin).nextDue).toNat < 32768) : Classified s m (s.farFrame m)

theorem classify_cases {s : State} (bounded : ∀ o : Station, (s.ctx o).isSynced = true → (s.ctx o).Bounded) (m : Message) :
    Classified s m (s.classify m) := by
  by_cases unsynced : (s.ctx m.key.origin).state = .unsynced
  · have eq : s.classify m = s.syncFrame m := by simp only [State.classify, unsynced]
    exact eq ▸ .sync unsynced
  by_cases own : (s.ctx m.key.origin).state = .own
  · have eq : s.classify m = s := by simp only [State.classify, own]
    rw [eq]
    exact .useless
  have synced := Context.synced_of unsynced own
  by_cases new : newer m.key.epoch (s.ctx m.key.origin).epoch = true
  · rw [classify_synced synced, if_pos new]
    exact .restart synced new
  by_cases useless : (m.key.epoch = (s.ctx m.key.origin).epoch ∧ ∃ x ∈ s.store.own ++ s.store.peer, x.key = m.key) ∨
      (m.key.epoch ≠ (s.ctx m.key.origin).epoch ∧ newer m.key.epoch (s.ctx m.key.origin).epoch = false)
  · rcases classify_useless synced useless with eq | eq <;> rw [eq]
    · exact .useless
    · exact .stale
  obtain ⟨fresh, young⟩ := not_or.mp useless
  have mine : m.key.epoch = (s.ctx m.key.origin).epoch := by
    by_contra other
    exact young ⟨other, Bool.eq_false_iff.mpr new⟩
  have absent : ∀ x ∈ s.store.own ++ s.store.peer, x.key ≠ m.key := fun x mem key => fresh ⟨mine, x, mem, key⟩
  have base := (bounded _ synced).base_eq
  rw [classify_synced synced, if_neg new, if_neg (not_not.mpr mine)]
  unfold offset
  rw [base]
  split
  · rename_i behind
    exact .behind synced mine behind
  · rename_i ahead
    split
    · rename_i near
      exact .window synced mine absent near (Nat.not_le.mp ahead)
    · rename_i far
      exact .far synced mine absent (Nat.not_le.mp far) (Nat.not_le.mp ahead)

theorem Settles.at_restart {s w : State} {o : Station} {epoch : Epoch} {nextDue horizon floor : SeqNum}
    (h : Settles (s.beginRestart o epoch nextDue horizon floor) w) :
    SettlesBut o s w ∧ (w.ctx o).isSynced = (s.ctx o).isSynced ∧ (w.ctx o).place = (epoch, nextDue, horizon, floor) := by
  refine ⟨(SettlesBut.beginRestart s o _ _ _ _).trans (.of_settles h), ?_, ?_⟩
  · rw [h.synced, beginRestart_ctx, if_pos rfl, Context.isSynced, Context.isSynced]
    obtain ⟨-, -, -, -, -, -, state⟩ := countRestart_fields (s.ctx o)
    have same : ((s.ctx o).restarted epoch nextDue horizon floor).state = (s.ctx o).state := state
    rw [same]
  · rw [h.place, beginRestart_ctx, if_pos rfl]
    rfl

theorem DueFrom.restartRelease (st : Store) (o : Station) (epoch : Epoch) : DueFrom st (st.restartRelease o epoch) :=
  fun e mem due => by
    rw [Store.restartRelease, Store.mapEntries] at mem
    obtain ⟨x, there, rfl⟩ := List.mem_map.mp mem
    refine ⟨x, there, ?_, ?_⟩
    · split <;> rfl
    · split at due
      · cases due
      · exact due

namespace ContextsSound

variable {s : State}

theorem syncFrame (h : ContextsSound s) {m : Message} (unsynced : (s.ctx m.key.origin).state = .unsynced) :
    ContextsSound (s.syncFrame m) := by
  obtain ⟨inserts, settles⟩ := syncFrame_takes s m
  obtain ⟨others, synced, place⟩ := settles.at_set
  have peer : m.key.origin ≠ s.stn := fun own => by
    rw [(h.ownState _).mpr own] at unsynced
    cases unsynced
  have stn : (s.syncFrame m).stn = s.stn := by
    have eq : s.classify m = s.syncFrame m := by simp only [State.classify, unsynced]
    rw [← eq]
    exact congrArg StationControl.stn (classify_only s m .station (by decide))
  have fields := place
  simp only [Context.place, Prod.mk.injEq] at fields
  obtain ⟨epoch, due, horizon, floor⟩ := fields
  have bounded : ((s.syncFrame m).ctx m.key.origin).Bounded := .single due horizon floor
  refine h.placed others stn peer synced bounded ?_
  refine h.due_of_insert inserts rfl peer (.refl _) ⟨epoch.symm, ?_⟩ fun x mem due eq _ => ?_
  · rw [bounded.extent_eq, due, horizon]
    show (m.key.seq - m.key.seq).toNat < _
    bv_omega
  · exact absurd eq (h.no_due_unsynced (Context.not_synced_of_unsynced unsynced) x mem due)

theorem restartFrame (h : ContextsSound s) {m : Message} (synced : (s.ctx m.key.origin).isSynced = true)
    (new : newer m.key.epoch (s.ctx m.key.origin).epoch = true) (stn : (s.restartFrame m).stn = s.stn) :
    ContextsSound (s.restartFrame m) := by
  obtain ⟨inserts, settles⟩ := restartFrame_takes s m
  obtain ⟨others, synced', place⟩ := Settles.at_restart settles
  have peer := h.not_own synced
  have store : (s.frameRestarts m).store = s.store.restartRelease m.key.origin (s.ctx m.key.origin).epoch :=
    beginRestart_store _ _ _ _ _ _
  have era : m.key.epoch ≠ (s.ctx m.key.origin).epoch := fun eq => by
    rw [eq, newer_self] at new
    cases new
  have fields := place
  simp only [Context.place, Prod.mk.injEq] at fields
  obtain ⟨epoch, due, horizon, floor⟩ := fields
  have bounded := Context.Bounded.restartByFrame due horizon floor
  have stn' : (s.frameRestarts m).stn = s.stn := congrArg StationControl.stn (frameRestarts_only s m .station (by decide))
  refine h.placed others stn peer (synced'.trans synced) bounded.1 ?_
  refine h.due_of_insert inserts rfl (by rw [stn']; exact peer) (store ▸ .restartRelease _ _ _) ⟨epoch.symm, bounded.2⟩
    fun x mem due eq within => ?_
  rw [store] at mem
  have clear := restartRelease_withheld s.store m.key.origin (s.ctx m.key.origin).epoch x (List.mem_append.mpr (.inr mem)) eq within.1
  rw [due] at clear
  cases clear

/-- A frame that is taken into the window or past it (R33, R34). -/
theorem taken (h : ContextsSound s) {m : Message} {w : State} {c : Context} (synced : (s.ctx m.key.origin).isSynced = true)
    (inserts : Inserts s w (m.entry Pins.onlyDue)) (others : SettlesBut m.key.origin s w) (stn : w.stn = s.stn)
    (synced' : (w.ctx m.key.origin).isSynced = true) (place : (w.ctx m.key.origin).place = c.place) (bounded : c.Bounded)
    (epoch : c.epoch = m.key.epoch) (mine : m.key.epoch = (s.ctx m.key.origin).epoch)
    (due : c.nextDue = (s.ctx m.key.origin).nextDue) (longer : (s.ctx m.key.origin).extent ≤ c.extent)
    (reach : offset c.nextDue m.key.seq < c.extent) : ContextsSound w := by
  refine h.placed others stn (h.not_own synced) synced' (bounded.of_place place) ?_
  refine h.due_of_insert inserts rfl (h.not_own synced) (.refl _) ((Context.within_congr place _).mpr ⟨epoch.symm, reach⟩)
    fun x mem carried eq within => (Context.within_congr place _).mpr ⟨?_, ?_⟩
  · exact within.1.trans (mine.symm.trans epoch.symm)
  · rw [due]
    exact Nat.lt_of_lt_of_le within.2 longer

theorem windowFrame (h : ContextsSound s) {m : Message} (synced : (s.ctx m.key.origin).isSynced = true)
    (mine : m.key.epoch = (s.ctx m.key.origin).epoch) (absent : ∀ x ∈ s.store.own ++ s.store.peer, x.key ≠ m.key)
    (near : (m.key.seq - (s.ctx m.key.origin).nextDue).toNat ≤
      ((s.ctx m.key.origin).lossFloor - (s.ctx m.key.origin).nextDue).toNat + 63)
    (ahead : (m.key.seq - (s.ctx m.key.origin).nextDue).toNat < 32768) (stn : (s.windowFrame m).stn = s.stn) :
    ContextsSound (s.windowFrame m) := by
  have old := h.bounded _ synced
  obtain ⟨inserts, u, first, settles⟩ := windowFrame_takes absent
  obtain ⟨others, same, place⟩ := settles.at_set
  have place' : ((s.windowFrame m).ctx m.key.origin).place =
      ({ s.ctx m.key.origin with horizon := later (s.ctx m.key.origin).horizon m.key.seq } : Context).place := by
    rw [place, first.ctx m.key.origin]
    rfl
  have longer := old.extended near ahead
  have bounded := old.extend near ahead
  refine h.taken synced inserts ((SettlesBut.of_settles first).trans others) stn (same.trans ((first.synced _).trans synced)) place'
    bounded mine.symm mine rfl ?_ ?_
  · rw [old.extent_eq, bounded.extent_eq, longer]
    exact Nat.le_max_left _ _
  · rw [bounded.extent_eq, longer]
    exact Nat.lt_of_lt_of_le (Nat.lt_succ_self _) (Nat.le_max_right _ _)

theorem farFrame (h : ContextsSound s) {m : Message} (synced : (s.ctx m.key.origin).isSynced = true)
    (mine : m.key.epoch = (s.ctx m.key.origin).epoch) (absent : ∀ x ∈ s.store.own ++ s.store.peer, x.key ≠ m.key)
    (far : ((s.ctx m.key.origin).lossFloor - (s.ctx m.key.origin).nextDue).toNat + 63 <
      (m.key.seq - (s.ctx m.key.origin).nextDue).toNat)
    (ahead : (m.key.seq - (s.ctx m.key.origin).nextDue).toNat < 32768) (stn : (s.farFrame m).stn = s.stn) :
    ContextsSound (s.farFrame m) := by
  have old := h.bounded _ synced
  obtain ⟨inserts, settles⟩ := farFrame_takes absent
  obtain ⟨others, same, place⟩ := settles.at_set
  have bounded := Context.Bounded.jump far ahead
  have next := succ_offset (d := (s.ctx m.key.origin).nextDue) (n := m.key.seq) (by omega)
  refine h.taken synced inserts others stn (same.trans synced) place bounded mine.symm mine rfl ?_ ?_
  · rw [old.extent_eq, bounded.extent_eq]
    have window := old.window
    unfold offset at window
    exact Nat.le_of_lt (Nat.lt_of_lt_of_le (Nat.lt_of_le_of_lt window (Nat.succ_lt_succ far)) (Nat.le_of_eq next.symm))
  · rw [bounded.extent_eq]
    exact Nat.lt_of_lt_of_le (Nat.lt_succ_self _) (Nat.le_of_eq next.symm)

theorem behindFrame (h : ContextsSound s) {m : Message} (synced : (s.ctx m.key.origin).isSynced = true)
    (stn : (s.behindFrame m).stn = s.stn) : ContextsSound (s.behindFrame m) := by
  obtain ⟨inserts, settles⟩ := behindFrame_takes s m
  refine h.settled settles stn fun x mem due => ?_
  rcases inserts.peer_from (h.not_own synced) x mem with there | rfl
  · exact ⟨x, there, rfl, due⟩
  · cases due

theorem classify (h : ContextsSound s) (m : Message) : ContextsSound (s.classify m) := by
  have stn : (s.classify m).stn = s.stn := congrArg StationControl.stn (classify_only s m .station (by decide))
  have classified := classify_cases h.bounded m
  generalize s.classify m = t at stn classified ⊢
  cases classified with
  | useless => exact h
  | stale => exact h.calm (.of_only (count_only _ _))
  | sync unsynced => exact h.syncFrame unsynced
  | restart synced new => exact h.restartFrame synced new stn
  | behind synced => exact h.behindFrame synced stn
  | window synced mine absent near ahead => exact h.windowFrame synced mine absent near ahead stn
  | far synced mine absent far ahead => exact h.farFrame synced mine absent far ahead stn

end ContextsSound

end Sys2Proof.Machine
end

section
/-! The contexts within their bounds: BEACONs, give-ups, the Delivery Engine, and the whole step (O11). -/

open Sys2Proof

namespace Sys2Proof.Machine

set_option Elab.async false

namespace ContextsSound

variable {s : State}

theorem restartBeacon (h : ContextsSound s) {o : Station} (synced : (s.ctx o).isSynced = true) (epoch : Epoch) (nextSeq : SeqNum)
    (stn : (s.restartBeacon o epoch nextSeq).stn = s.stn) :
    ContextsSound (s.restartBeacon o epoch nextSeq) := by
  have store := (restartBeacon_ctx s o epoch nextSeq).2
  have settles := restartBeacon_eq s o epoch nextSeq ▸ Settles.endRestart
    (s.beginRestart o epoch (restartByBeacon nextSeq).1 (nextSeq - 1) (restartByBeacon nextSeq).2) o
  obtain ⟨others, synced', place⟩ := settles.at_restart
  have fields := place
  simp only [Context.place, Prod.mk.injEq] at fields
  obtain ⟨era, due, horizon, floor⟩ := fields
  have bounded := Context.Bounded.restartByBeacon due horizon floor
  refine h.placed others stn (h.not_own synced) (synced'.trans synced) bounded fun x mem carried => ?_
  rw [store] at mem
  obtain ⟨y, there, key, was⟩ := DueFrom.restartRelease _ _ _ x mem carried
  split
  · rename_i eq
    have within := (h.due y there was).2.1
    rw [key, eq] at within
    have clear := restartRelease_withheld s.store o (s.ctx o).epoch x (List.mem_append.mpr (.inr mem)) eq within
    rw [carried] at clear
    cases clear
  · exact ⟨y, there, key, was⟩

theorem raiseByBeacon (h : ContextsSound s) {o : Station} (synced : (s.ctx o).isSynced = true) (nextSeq : SeqNum) :
    ContextsSound (s.raiseByBeacon o nextSeq) := by
  have old := h.bounded o synced
  unfold State.raiseByBeacon
  dsimp only
  split
  · rename_i raises
    obtain ⟨bounded, longer⟩ := old.raise raises.1 raises.2
    have settled (c : Context) (was : ContextState) (must : Bool) := settle_only (s.setCtx o c) o was must
    have kept (c : Context) (was : ContextState) (must : Bool) :
        ((s.setCtx o c).settle o was must).stn = s.stn ∧ ((s.setCtx o c).settle o was must).store = s.store :=
      ⟨congrArg StationControl.stn (settled c was must .station (by decide)), settled c was must .store (by decide)⟩
    obtain ⟨others, same, place⟩ := (Settles.settle (s.setCtx o _) o (s.ctx o).state true).at_set
    refine h.placed others (kept _ _ _).1 (h.not_own synced) (same.trans synced) (bounded.of_place place) fun x mem carried => ?_
    rw [(kept _ _ _).2] at mem
    split
    · rename_i eq
      have within := (h.due x mem carried).2
      rw [eq] at within
      refine (Context.within_congr place x.key).mpr ⟨within.1, ?_⟩
      rw [bounded.extent_eq]
      have reach := within.2
      rw [old.extent_eq] at reach
      exact Nat.lt_of_lt_of_le reach longer
    · exact ⟨x, mem, rfl, carried⟩
  · exact h

theorem takeBeacon (h : ContextsSound s) (o : Station) (epoch : Epoch) (nextSeq : SeqNum) :
    ContextsSound (s.takeBeacon o epoch nextSeq) := by
  have stn : (s.takeBeacon o epoch nextSeq).stn = s.stn := congrArg StationControl.stn (takeBeacon_only s o epoch nextSeq .station (by decide))
  by_cases synced : (s.ctx o).isSynced = true
  · rw [takeBeacon_synced synced] at stn ⊢
    split
    · rename_i new
      rw [if_pos new] at stn
      exact h.restartBeacon synced epoch nextSeq stn
    · split
      · exact h.raiseByBeacon synced nextSeq
      · exact h
  · have off : (s.ctx o).state = .own ∨ (s.ctx o).state = .unsynced := by
      by_contra neither
      obtain ⟨peer, some⟩ := not_or.mp neither
      exact synced (Context.synced_of some peer)
    rcases off with own | unsynced
    · have eq : s.takeBeacon o epoch nextSeq = s := by simp only [State.takeBeacon, own]
      rw [eq]
      exact h
    · have eq : s.takeBeacon o epoch nextSeq = s.setCtx o { s.ctx o with
          state := .steady, epoch := epoch, nextDue := nextSeq, lossFloor := nextSeq, horizon := nextSeq - 1 } := by
        simp only [State.takeBeacon, unsynced]
      have peer : o ≠ s.stn := fun own => by
        rw [(h.ownState o).mpr own] at unsynced
        cases unsynced
      rw [eq]
      refine h.placed (.setCtx _ _ _) rfl peer ?_ ?_ fun x mem carried => ?_
      · rw [State.ctx_setCtx, if_pos rfl]
        rfl
      · rw [State.ctx_setCtx, if_pos rfl]
        exact .empty rfl rfl rfl
      · rw [if_neg (h.no_due_unsynced (Bool.eq_false_iff.mpr synced) x mem carried)]
        exact ⟨x, mem, rfl, carried⟩

theorem giveUp (h : ContextsSound s) (o : Station) (epoch : Epoch) (value : SeqNum) : ContextsSound (s.giveUp o epoch value) := by
  have only := giveUp_only s o epoch value
  have stn : (s.giveUp o epoch value).stn = s.stn := congrArg StationControl.stn (only .station (by decide))
  have store : (s.giveUp o epoch value).store = s.store := only .store (by decide)
  unfold State.giveUp at stn store ⊢
  dsimp only at stn store ⊢
  split
  · rename_i taken
    rw [if_pos taken] at stn store
    obtain ⟨synced, -, -⟩ := taken
    have old := h.bounded o synced
    obtain ⟨others, same, place⟩ := (Settles.settle (s.setCtx o { s.ctx o with lossFloor := (s.ctx o).giveUpFloor value }) o
      (s.ctx o).state true).at_set
    have bounded := old.giveUp value
    refine h.placed others stn (h.not_own synced) (same.trans synced) (bounded.of_place place) fun x mem carried => ?_
    rw [store] at mem
    split
    · rename_i eq
      have within := (h.due x mem carried).2
      rw [eq] at within
      exact (Context.within_congr place x.key).mpr within
    · exact ⟨x, mem, rfl, carried⟩
  · exact h

theorem giveUpRun (h : ContextsSound s) (i : Fin 8) : ContextsSound (s.giveUpRun i) := by
  have only := giveUpRun_only s i
  have gaveUp := h.giveUp (s.tracker i).origin (s.tracker i).epoch ((s.tracker i).runFirst + BitVec.ofNat 16 (s.tracker i).runCount)
  have first := giveUp_only s (s.tracker i).origin (s.tracker i).epoch
    ((s.tracker i).runFirst + BitVec.ofNat 16 (s.tracker i).runCount)
  have store : (s.giveUpRun i).store = s.store := only .store (by decide)
  have stn : (s.giveUpRun i).stn = s.stn := congrArg StationControl.stn (only .station (by decide))
  have store' : (s.giveUp (s.tracker i).origin (s.tracker i).epoch
    ((s.tracker i).runFirst + BitVec.ofNat 16 (s.tracker i).runCount)).store = s.store := first .store (by decide)
  have stn' : (s.giveUp (s.tracker i).origin (s.tracker i).epoch
    ((s.tracker i).runFirst + BitVec.ofNat 16 (s.tracker i).runCount)).stn = s.stn :=
      congrArg StationControl.stn (first .station (by decide))
  refine gaveUp.settled ?_ (stn.trans stn'.symm) (by rw [store, store']; exact .refl _)
  unfold State.giveUpRun
  dsimp only
  refine .of_held (HeldOnly.trans ?_ (claimIfWaiting_heldOnly _ _))
  split
  · exact freeTracker_heldOnly _ _
  · exact .refl _

/-- An advance claim no further than the horizon, nor than any entry with DUE (R43). -/
theorem advance (h : ContextsSound s) {o : Station} (synced : (s.ctx o).isSynced = true) {k : Nat} (few : k ≤ 32767)
    (reach : k ≤ (s.ctx o).extent)
    (past : ∀ x ∈ s.store.peer, x.pins.due = true → x.key.origin = o → x.key.epoch = (s.ctx o).epoch →
      k ≤ offset (s.ctx o).nextDue x.key.seq) : ContextsSound (s.advance o ((s.ctx o).nextDue + BitVec.ofNat 16 k)) := by
  have old := h.bounded o synced
  rw [old.extent_eq] at reach
  have bounded := old.advanceTo few reach
  have only := advance_only s o ((s.ctx o).nextDue + BitVec.ofNat 16 k)
  have stn : (s.advance o ((s.ctx o).nextDue + BitVec.ofNat 16 k)).stn = s.stn :=
    congrArg StationControl.stn (only .station (by decide))
  have store : (s.advance o ((s.ctx o).nextDue + BitVec.ofNat 16 k)).store = s.store := only .store (by decide)
  have eq : s.advance o ((s.ctx o).nextDue + BitVec.ofNat 16 k) =
      (s.setCtx o ((s.ctx o).advanceTo ((s.ctx o).nextDue + BitVec.ofNat 16 k))).settle o (s.ctx o).state true := if_pos synced
  obtain ⟨others, same, place⟩ := (Settles.settle (s.setCtx o ((s.ctx o).advanceTo ((s.ctx o).nextDue + BitVec.ofNat 16 k))) o
    (s.ctx o).state true).at_set
  rw [← eq] at others same place
  refine h.placed others stn (h.not_own synced) (same.trans synced) (bounded.of_place place) fun x mem carried => ?_
  rw [store] at mem
  split
  · rename_i own
    have within := (h.due x mem carried).2
    rw [own, old.extent_eq] at within
    have far := past x mem carried own within.1
    refine (Context.within_congr place x.key).mpr ⟨within.1, ?_⟩
    rw [bounded.extent_eq]
    show (x.key.seq - ((s.ctx o).nextDue + BitVec.ofNat 16 k)).toNat <
      ((s.ctx o).horizon + 1 - ((s.ctx o).nextDue + BitVec.ofNat 16 k)).toNat
    unfold offset at far within
    rw [sub_offset far, sub_offset reach]
    exact Nat.sub_lt_sub_right far within.2
  · exact ⟨x, mem, rfl, carried⟩

theorem advanceRestart (h : ContextsSound s) {o : Station} (synced : (s.ctx o).isSynced = true) :
    ContextsSound (s.advanceRestart o) := by
  have ctx : (s.advanceRestart o).ctx o = { s.ctx o with restartPending := false, restartOldEpoch := 0, restartCount := 0 } := by
    rw [State.advanceRestart, State.ctx_setCtx, if_pos rfl]
  refine h.placed (.setCtx _ _ _) rfl (h.not_own synced) (by rw [ctx]; exact synced) ?_ fun x mem carried => ?_
  · rw [ctx]
    exact .of_place (c := s.ctx o) rfl (h.bounded o synced)
  · split
    · rename_i own
      rw [ctx]
      exact own ▸ (h.due x mem carried).2
    · exact ⟨x, mem, rfl, carried⟩

theorem table {s t : State} (table : Table s t) (h : ContextsSound s) : ContextsSound t := by
  induction table with
  | calm calm => exact h.calm calm
  | trans _ _ one two => exact two (one h)
  | frame s m => exact h.classify m
  | beacon s o epoch nextSeq => exact h.takeBeacon o epoch nextSeq
  | giveUp s i => exact h.giveUpRun i
  | advance s o k synced _ few reach past => exact h.advance synced few reach past
  | restart s o synced => exact h.advanceRestart synced

end ContextsSound

/-! ### The Delivery Engine at the table (R94 to R96) -/

/-- A claim that changes pins alone, and sets DUE nowhere, with its report. -/
theorem Calm.applyStore {s : State} {st : Store} (pins : PinsOnly s.store st) (due : DueFrom s.store st) : Calm s (s.applyStore st) where
  stn := congrArg StationControl.stn (applyStore_only s st .station (by decide))
  places := .of_contexts (applyStore_only s st .contexts (by decide))
  keys := by
    rw [applyStore_store]
    have := congrArg (List.map Prod.fst) pins.peer
    simpa only [List.map_map, Function.comp_def] using this
  owned own e mem := by
    rw [applyStore_store] at mem
    obtain ⟨x, there, eq⟩ := mem_of_map_eq pins.own.symm mem
    rw [← own x there]
    exact (congrArg (fun p => p.1.origin) eq).symm
  due := by
    rw [applyStore_store]
    exact due
  sound h := h.inner (applyStore_inner s st)
  pool _ := .inl ⟨.applyStore s st, by rw [show (s.applyStore st).station = s.station from applyStore_only s st .station (by decide)]⟩

/-- A change of the own context's place. -/
theorem Calm.setOwn {s : State} {c : Context} (state : c.state = (s.ctx s.stn).state)
    (held : c.trackerHeld = (s.ctx s.stn).trackerHeld) : Calm s (s.setCtx s.stn c) := by
  refine .of_station rfl (fun p => ?_) (fun p => ?_) rfl rfl Iff.rfl
  · rw [State.ctx_setCtx]
    split
    · rename_i eq
      rw [eq]
      exact ⟨state, fun other => absurd rfl other⟩
    · exact ⟨rfl, fun _ => ⟨rfl, rfl⟩⟩
  · rw [State.ctx_setCtx]
    split
    · rename_i eq
      rw [eq, held]
    · rfl

theorem DueFrom.hand (st : Store) (k : Key) : DueFrom st (st.hand k).2 := by
  rcases st.hand_cases k with h | h | h <;> rw [h]
  · exact .refl st
  · exact .refl st
  · exact .mapPins st k _ fun _ due => by cases due

/-- The hand claim of a deliverable key takes its DUE (R16). -/
theorem hand_takes {st : Store} {k : Key} (deliverable : st.deliverable k = true) :
    ∀ x ∈ (st.hand k).2.peer, x.pins.due = true → x.key ≠ k := by
  obtain ⟨e, found, due⟩ := deliverable_of_find.mp deliverable
  have eq : st.hand k = (.handed, st.mapPins k fun p => { p with due := false, handed := true }) := by
    rw [Store.hand, found]
    exact if_pos due
  rw [eq]
  intro x mem carried key
  rw [Store.mapPins, Store.mapEntries] at mem
  obtain ⟨y, -, rfl⟩ := List.mem_map.mp mem
  split at carried
  · cases carried
  · rename_i other
    rw [if_neg other] at key
    exact other key

theorem Key.eq_of {k : Key} {o : Station} {epoch : Epoch} {n : SeqNum} (origin : k.origin = o) (era : k.epoch = epoch)
    (seq : k.seq = n) : k = ⟨o, epoch, n⟩ := by
  subst origin era seq
  rfl

section Serve

variable {s : State} {o : Station}

/-- A turn for a MESSAGE: the hand claim, the record, and the advance claim (R94). -/
theorem message_turn (ready : s.ready o = .message) : ∃ u, u.store = (s.store.hand (s.keyOf o (s.ctx o).nextDue)).2 ∧ Calm s u ∧
    u.ctx o = s.ctx o ∧ s.serve o = u.advance o ((s.ctx o).nextDue + 1) := by
  have hands : Calm s ((s.withDelivery { s.delivery with lastServed := o }).applyStore
      (s.store.hand (s.keyOf o (s.ctx o).nextDue)).2) :=
    (Calm.of_only (withDelivery_only s _)).trans (.applyStore (.hand _ _) (.hand _ _))
  refine ⟨_, ?_, hands.trans (.of_only (enqueue_only _ (.message (s.keyOf o (s.ctx o).nextDue)))), ?_, ?_⟩
  · exact applyStore_store (s.withDelivery _) _
  · exact State.ctx_congr (applyStore_only (s.withDelivery _) _ .contexts (by decide)) o
  · simp only [State.serve, ready]
    rfl

/-- A turn for a LOST: the record and the advance claim past the run (R95). -/
theorem lost_turn (ready : s.ready o = .lost) : ∃ u, Only [.delivery, .events, .counters] s u ∧
    s.serve o = u.advance o ((s.ctx o).nextDue + BitVec.ofNat 16
      (s.lostRun o (min (s.ctx o).extent Config.maxLost) (s.ctx o).nextDue)) := by
  have run := lostRun_withDelivery s { s.delivery with lastServed := o } o (min (s.ctx o).extent Config.maxLost) (s.ctx o).nextDue
  refine ⟨(((s.withDelivery { s.delivery with lastServed := o }).enqueue (.lost o (s.ctx o).epoch (s.ctx o).nextDue
    (s.lostRun o (min (s.ctx o).extent Config.maxLost) (s.ctx o).nextDue))).raise .loss).addCount .lostSeqs
    (s.lostRun o (min (s.ctx o).extent Config.maxLost) (s.ctx o).nextDue), ?_, ?_⟩
  · exact ((((withDelivery_only _ _).then (enqueue_only _ _)).then (raise_only _ _)).then (addCount_only _ _ _)).mono
  · simp only [State.serve, ready, State.makeLost]
    rw [← run]
    rfl

theorem message_table (store : StoreSound s) (contexts : ContextsSound s) (ready : s.ready o = .message) : Table s (s.serve o) := by
  obtain ⟨u, stored, calm, ctx, eq⟩ := message_turn ready
  rw [eq]
  refine (Table.calm calm).trans ?_
  by_cases own : (s.ctx o).state = .own
  · have mine : o = u.stn := ((contexts.ownState o).mp own).trans calm.stn.symm
    have sets : u.advance o ((s.ctx o).nextDue + 1) = u.setCtx o ((u.ctx o).advanceTo ((s.ctx o).nextDue + 1)) := by
      refine if_neg ?_
      rw [ctx, Context.not_synced_of_own own]
      exact Bool.false_ne_true
    rw [sets, mine]
    exact .calm (.setOwn rfl rfl)
  · have synced : (s.ctx o).isSynced = true := Context.synced_of (fun off => by rw [ready_unsynced off] at ready; cases ready) own
    have deliverable := ready_message ready own
    obtain ⟨e, mem, key, due⟩ := (Store.deliverable_iff store.keys _).mp deliverable
    have origin : e.key.origin = o := congrArg Key.origin key
    have shared : e ∈ s.store.peer := (List.mem_append.mp mem).resolve_left fun own =>
      contexts.not_own synced (origin.symm.trans (store.own e own))
    have reach : 1 ≤ (s.ctx o).extent := by
      have within := (contexts.due e shared due).2.2
      rw [origin] at within
      exact Nat.lt_of_le_of_lt (Nat.zero_le _) within
    have moves := Table.advance u o 1 (by rw [ctx]; exact synced) (Nat.le_refl 1) (by decide) (by rw [ctx]; exact reach)
      fun x mem carried origin era => by
        rw [stored] at mem
        rw [ctx] at era ⊢
        have other := hand_takes deliverable x mem carried
        refine Nat.one_le_iff_ne_zero.mpr fun zero => other ?_
        have seq := offset_add (s.ctx o).nextDue x.key.seq
        rw [zero] at seq
        have seq' : x.key.seq = (s.ctx o).nextDue := by rw [← seq]; exact BitVec.add_zero _
        exact Key.eq_of origin era seq'
    rw [ctx] at moves
    exact moves

theorem lost_table (store : StoreSound s) (ready : s.ready o = .lost) : Table s (s.serve o) := by
  obtain ⟨u, only, eq⟩ := lost_turn ready
  rw [eq]
  have ctx : u.ctx o = s.ctx o := State.ctx_congr (only .contexts (by decide)) o
  have same : u.store = s.store := only .store (by decide)
  refine (Table.calm (.of_only only)).trans ?_
  have own : (s.ctx o).state ≠ .own := fun own => by
    rw [ready_own own] at ready
    split at ready <;> cases ready
  have synced : (s.ctx o).isSynced = true := Context.synced_of (fun off => by rw [ready_unsynced off] at ready; cases ready) own
  have here : s.lostReportable o (s.ctx o).nextDue = true := by
    rw [ready_synced synced] at ready
    split at ready
    · cases ready
    · split at ready
      · cases ready
      · split at ready
        · assumption
        · cases ready
  obtain ⟨n, run, some, few, reportable, -⟩ := lostRun_of_ready here
  have bound := (lostRun_spec s o (min (s.ctx o).extent Config.maxLost) (s.ctx o).nextDue).1
  rw [run] at bound ⊢
  have moves := Table.advance u o n (by rw [ctx]; exact synced) some few (by rw [ctx]; exact Nat.le_trans bound (Nat.min_le_left _ _))
    fun x mem carried origin era => by
      rw [same] at mem
      rw [ctx] at era ⊢
      by_contra less
      have lost := reportable _ (Nat.not_le.mp less)
      rw [offset_add] at lost
      have deliverable : s.store.deliverable (s.keyOf o x.key.seq) = true :=
        (Store.deliverable_iff store.keys _).mpr ⟨x, List.mem_append.mpr (.inr mem), Key.eq_of origin era rfl, carried⟩
      simp [State.lostReportable, deliverable] at lost
  rw [ctx] at moves
  exact moves

end Serve

/-- A turn makes a record of a context, and moves it no further than its horizon and its entries with DUE. -/
theorem serve_table {s : State} (store : StoreSound s) (contexts : ContextsSound s) (o : Station) : Table s (s.serve o) := by
  cases ready : s.ready o with
  | no =>
    have eq : s.serve o = s := by simp only [State.serve, ready]
    rw [eq]
    exact .refl s
  | restart =>
    have synced : (s.ctx o).isSynced = true := Context.synced_of (fun off => by rw [ready_unsynced off] at ready; cases ready)
      fun own => by
        rw [ready_own own] at ready
        split at ready <;> cases ready
    have eq : s.serve o = (((s.withDelivery { s.delivery with lastServed := o }).enqueue
        (.restart o (s.ctx o).restartOldEpoch (s.ctx o).epoch (s.ctx o).restartCount)).raise .restart).advanceRestart o := by
      simp only [State.serve, ready]
      rfl
    rw [eq]
    have only := ((withDelivery_only s { s.delivery with lastServed := o }).then (enqueue_only _
      (.restart o (s.ctx o).restartOldEpoch (s.ctx o).epoch (s.ctx o).restartCount))).then (raise_only _ .restart)
    exact (Table.calm (.of_only only)).trans (.restart _ o synced)
  | lost => exact lost_table store ready
  | message => exact message_table store contexts ready

/-- Each command works at the table, enters ACTIVE, or resets. -/
theorem exec_cases {c : Instr} {s t : State} (store : StoreSound s) (contexts : ContextsSound s) (e : exec c s = .next t) :
    Table s t ∨ s.station.state = .listening ∧ t = s.activated.offerAll ∨ ∃ epoch, Fresh t epoch := by
  by_cases plain : isPlain c = true
  · exact .inl (exec_table e plain)
  by_cases reset : isReset c = true
  · obtain rfl | ⟨fresh, -⟩ := exec_reset_cases reset e
    · exact .inl (.refl _)
    · exact .inr (.inr fresh)
  cases c with
  | deliveryTurn =>
    refine .inl ?_
    simp only [exec, execDeliveryTurn] at e
    split at e
    · split at e
      · exact Host.Outcome.next.inj e ▸ serve_table store contexts _
      · exact Host.Outcome.next.inj e ▸ .refl s
    · exact Host.Outcome.next.inj e ▸ .refl s
  | listenTimerRunsOut =>
    obtain rfl | ⟨listening, -, eq⟩ := exec_listenTimer_cases e
    · exact .inl (.refl _)
    · exact .inr (.inl ⟨listening, eq⟩)
  | _ => first
    | exact absurd rfl plain
    | exact absurd rfl reset

theorem ContextsSound.entered {s : State} (h : ContextsSound s) : ContextsSound s.activated.offerAll := by
  have only := offerAll_only s.activated
  have store : s.activated.offerAll.store = s.store := only .store (by decide)
  have station : s.activated.offerAll.station = s.activated.station := only .station (by decide)
  have stn : s.activated.offerAll.stn = s.stn := by rw [State.stn, station]; rfl
  have held : HeldOnly s s.activated.offerAll := offerAll_heldOnly s.activated
  exact h.settled (.of_held held) stn (by rw [store]; exact .refl _)

theorem contextsSound_exec {c : Instr} {s t : State} (e : exec c s = .next t) (store : StoreSound s) (h : ContextsSound s) :
    ContextsSound t := by
  rcases exec_cases store h e with table | ⟨-, eq⟩ | ⟨epoch, fresh⟩
  · exact h.table table
  · exact eq ▸ h.entered
  · exact fresh.contextsSound

/-- Settles O11: numbers are taken into a context within its window, and given up or reported no further than its horizon. -/
theorem contextsStayBounded : Obligations.ContextsStayBounded := fun _ _ e _ store contexts =>
  step_keeps (P := fun s => StoreSound s ∧ ContextsSound s)
    (fun _ l ⟨store, contexts⟩ =>
      ⟨store.withPending l, ⟨contexts.ownState, contexts.unsynced, contexts.bounded, contexts.due⟩⟩)
    (fun _ ⟨_, h⟩ => h) (fun _ _ _ e ⟨store, h⟩ => contextsSound_exec e store h) e ⟨store, contexts⟩

end Sys2Proof.Machine
end

section
/-! Where STEADY and GAPPED are decided (R25, O12). -/

open Sys2Proof

namespace Sys2Proof.Machine

set_option Elab.async false

/-! ### What a context's missing numbers and run are read from -/

/-- The place of `p` stands, and of the numbers in [next-due, horizon] the same are held. -/
def SameView (p : Station) (s t : State) : Prop := (t.ctx p).place = (s.ctx p).place ∧
  ∀ n, offset (s.ctx p).nextDue n < offset (s.ctx p).nextDue ((s.ctx p).horizon + 1) → (t.holds p n ↔ s.holds p n)

theorem Context.inSpan_congr {c d : Context} (place : d.place = c.place) (n : SeqNum) : d.inSpan n ↔ c.inSpan n := by
  simp only [Context.place, Prod.mk.injEq] at place
  obtain ⟨-, due, horizon, floor⟩ := place
  rw [Context.inSpan, Context.inSpan, Context.base, Context.base, due, horizon, floor]

namespace SameView

variable {p : Station} {s t u : State}

theorem of_holds (place : (t.ctx p).place = (s.ctx p).place) (holds : ∀ n, t.holds p n ↔ s.holds p n) : SameView p s t :=
  ⟨place, fun n _ => holds n⟩

theorem of_same (store : t.store = s.store) (place : (t.ctx p).place = (s.ctx p).place) : SameView p s t := by
  refine .of_holds place fun n => ?_
  have epoch : (t.ctx p).epoch = (s.ctx p).epoch := congrArg Prod.fst place
  rw [State.holds, State.holds, store, epoch]

theorem missing (h : SameView p s t) (n : SeqNum) : t.missing p n ↔ s.missing p n := by
  obtain ⟨place, holds⟩ := h
  rw [State.missing, State.missing, Context.inSpan_congr place]
  exact and_congr_right fun span => not_congr (holds n span.2)

theorem run (h : SameView p s t) (bounded : (s.ctx p).Bounded) {first : SeqNum} {count : Nat} (run : RunIs s p first count) :
    RunIs t p first count := by
  have place := h.1
  simp only [Context.place, Prod.mk.injEq] at place
  obtain ⟨-, due, horizon, -⟩ := place
  refine ⟨(h.missing _).mpr run.missing, fun n missing => ?_, run.size, fun i less => (h.missing _).mpr (run.absent i less), ?_⟩
  · rw [due]
    exact run.lowest n ((h.missing n).mp missing)
  · rw [horizon]
    rcases run.ends with full | last | there
    · exact .inl full
    · exact .inr (.inl last)
    · by_cases inside : offset (s.ctx p).nextDue (first + BitVec.ofNat 16 count) < offset (s.ctx p).nextDue ((s.ctx p).horizon + 1)
      · exact .inr (.inr ((h.2 _ inside).mpr there))
      · refine .inr (.inl ?_)
        obtain ⟨i, rfl⟩ : ∃ i, count = i + 1 := ⟨count - 1, by have := run.size; omega⟩
        have span := (run.absent i (Nat.lt_succ_self i)).1.2
        have size := run.size
        have small := bounded.horizon
        unfold offset at inside small
        have step : first + BitVec.ofNat 16 (i + 1) = first + BitVec.ofNat 16 i + 1 := by bv_omega
        rw [step] at inside ⊢
        generalize first + BitVec.ofNat 16 i = n at span inside ⊢
        have next := succ_offset (d := (s.ctx p).nextDue) (n := n) (by omega)
        have same : (n + 1 - (s.ctx p).nextDue).toNat = ((s.ctx p).horizon + 1 - (s.ctx p).nextDue).toNat := by omega
        exact BitVec.sub_left_inj _ |>.mp (BitVec.eq_of_toNat_eq same)

end SameView

/-! ### Decided contexts -/

/-- The synchronised contexts but those of `X` are GAPPED exactly when a number is missing. -/
structure Decided (X : Set Station) (s : State) : Prop where
  ownState : ∀ o : Station, (s.ctx o).state = .own ↔ o = s.stn
  owned : ∀ e ∈ s.store.own, e.key.origin = s.stn
  bounded : ∀ o : Station, (s.ctx o).isSynced = true → (s.ctx o).Bounded
  gaps : ∀ o : Station, o ∉ X → (s.ctx o).isSynced = true → ((s.ctx o).state = .gapped ↔ ∃ n : SeqNum, s.missing o n)

namespace Decided

variable {X Y : Set Station} {s t : State}

theorem of_sound (store : StoreSound s) (contexts : ContextsSound s) (gaps : GapsDecided s) : Decided ∅ s :=
  ⟨contexts.ownState, store.own, contexts.bounded, fun o _ => gaps o⟩

theorem mono (h : Decided X s) (more : X ⊆ Y) : Decided Y s :=
  ⟨h.ownState, h.owned, h.bounded, fun o out => h.gaps o fun mem => out (more mem)⟩

theorem not_own (h : Decided X s) {o : Station} (synced : (s.ctx o).isSynced = true) : o ≠ s.stn := fun own => by
  rw [Context.not_synced_of_own ((h.ownState o).mpr own)] at synced
  cases synced

/-- What is held of another origin is in the peer share. -/
theorem holds_iff (h : Decided X s) {o : Station} (peer : o ≠ s.stn) (n : SeqNum) :
    s.holds o n ↔ (⟨o, (s.ctx o).epoch, n⟩ : Key) ∈ s.store.peer.map fun e => e.key := by
  rw [State.holds, List.mem_map]
  refine ⟨fun ⟨x, mem, key⟩ => ⟨x, ?_, key⟩, fun ⟨x, mem, key⟩ => ⟨x, List.mem_append.mpr (.inr mem), key⟩⟩
  refine (List.mem_append.mp mem).resolve_left fun own => peer ?_
  rw [← h.owned x own, key]

/-- Where states and views stand, what was decided is. -/
theorem of_views (h : Decided X s) (stn : t.stn = s.stn) (owned : ∀ e ∈ t.store.own, e.key.origin = t.stn)
    (state : ∀ o, (t.ctx o).state = .own ↔ (s.ctx o).state = .own) (bounded : ∀ o, (t.ctx o).isSynced = true → (t.ctx o).Bounded)
    (views : ∀ o, o ∉ Y → (t.ctx o).isSynced = true → o ∉ X ∧ (t.ctx o).state = (s.ctx o).state ∧ SameView o s t) :
    Decided Y t where
  ownState o := by rw [state, stn]; exact h.ownState o
  owned := owned
  bounded := bounded
  gaps o out synced := by
    obtain ⟨out', same, view⟩ := views o out synced
    have synced' : (s.ctx o).isSynced = true := by rwa [Context.isSynced, same] at synced
    rw [same, h.gaps o out' synced']
    exact exists_congr fun n => (view.missing n).symm

/-- A calm change leaves the view of every other origin. -/
theorem calm_view (h : Decided X s) (calm : Calm s t) {o : Station} (peer : o ≠ s.stn) : SameView o s t := by
  have place := ((calm.places o).2 peer).1
  have epoch : (t.ctx o).epoch = (s.ctx o).epoch := congrArg Prod.fst place
  have owned : ∀ e ∈ t.store.own, e.key.origin ≠ o := fun e mem eq => peer (by rw [← eq, calm.owned h.owned e mem])
  refine .of_holds place fun n => ?_
  rw [h.holds_iff peer, State.holds, epoch, ← calm.keys, List.mem_map]
  refine ⟨fun ⟨x, mem, key⟩ => ⟨x, ?_, key⟩, fun ⟨x, mem, key⟩ => ⟨x, List.mem_append.mpr (.inr mem), key⟩⟩
  exact (List.mem_append.mp mem).resolve_left fun own => owned x own (by rw [key])

theorem calm (h : Decided X s) (calm : Calm s t) : Decided X t := by
  have state (o : Station) : (t.ctx o).state = (s.ctx o).state := (calm.places o).1
  have synced (o : Station) : (t.ctx o).isSynced = (s.ctx o).isSynced := by rw [Context.isSynced, state]; rfl
  refine h.of_views calm.stn (by rw [calm.stn]; exact calm.owned h.owned) (fun o => by rw [state]) (fun o held => ?_)
    fun o out held => ⟨out, state o, ?_⟩
  · rw [synced] at held
    exact (h.bounded o held).of_place ((calm.places o).2 (h.not_own held)).1
  · rw [synced] at held
    exact h.calm_view calm (h.not_own held)

/-- Tracker-held flags do not count. -/
theorem heldOnly (h : Decided X s) (held : HeldOnly s t) (store : t.store = s.store) (stn : t.stn = s.stn) : Decided X t := by
  have state (o : Station) : (t.ctx o).state = (s.ctx o).state := by rw [held o]
  have place (o : Station) : (t.ctx o).place = (s.ctx o).place := by rw [held o]; rfl
  refine h.of_views stn (by rw [store, stn]; exact h.owned) (fun o => by rw [state])
    (fun o synced => (h.bounded o (by rwa [Context.isSynced, state] at synced)).of_place (place o))
    fun o out _ => ⟨out, state o, .of_same store (place o)⟩

/-- The context of `o` changes, to be decided afresh. -/
theorem setCtx (h : Decided X s) {o : Station} (peer : o ≠ s.stn) {c : Context} (state : c.state ≠ .own)
    (bounded : c.isSynced = true → c.Bounded) : Decided (insert o X) (s.setCtx o c) := by
  refine h.of_views rfl h.owned (fun p => ?_) (fun p synced => ?_) fun p out synced => ?_
  · rw [State.ctx_setCtx]
    split
    · rename_i eq
      subst eq
      exact iff_of_false state fun own => peer ((h.ownState p).mp own)
    · rfl
  · rw [State.ctx_setCtx] at synced ⊢
    split at synced
    · rename_i eq
      rw [if_pos eq]
      exact bounded synced
    · rename_i other
      rw [if_neg other]
      exact h.bounded p synced
  · obtain ⟨other, out⟩ := not_or.mp out
    have same : (s.setCtx o c).ctx p = s.ctx p := by rw [State.ctx_setCtx, if_neg other]
    exact ⟨out, by rw [same], .of_same rfl (by rw [same])⟩

theorem decideState (h : Decided X s) (o : Station) : Decided (X \ {o}) (s.decideState o) := by
  have settles := Settles.decideState s o
  have only := decideState_only s o
  have store : (s.decideState o).store = s.store := only .store (by decide)
  have stn : (s.decideState o).stn = s.stn := congrArg StationControl.stn (only .station (by decide))
  by_cases synced : (s.ctx o).isSynced = true
  · have ctx (p : Station) : (s.decideState o).ctx p =
        if p = o then { s.ctx o with state := if (s.runOf o).isSome then .gapped else .steady } else s.ctx p := by
      rw [State.decideState, if_pos synced, State.ctx_setCtx]
    refine ⟨fun p => ?_, by rw [store, stn]; exact h.owned, fun p held => ?_, fun p out held => ?_⟩
    · rw [stn, ctx]
      split
      · rename_i eq
        subst eq
        refine iff_of_false (fun own => ?_) (h.not_own synced)
        dsimp only at own
        split at own <;> cases own
      · exact h.ownState p
    · rw [settles.synced] at held
      exact (h.bounded p held).of_place (settles.place p)
    · rw [exists_congr fun n => (SameView.of_same store (settles.place p)).missing n]
      by_cases eq : p = o
      · subst eq
        rw [ctx, if_pos rfl, ← State.runOf_isSome (h.bounded p synced).horizon]
        dsimp only
        split
        · rename_i some
          exact iff_of_true rfl some
        · rename_i none
          exact iff_of_false nofun none
      · rw [ctx, if_neg eq]
        rw [settles.synced] at held
        exact h.gaps p (fun mem => out ⟨mem, eq⟩) held
  · have same : s.decideState o = s := if_neg synced
    rw [same]
    refine ⟨h.ownState, h.owned, h.bounded, fun p out held => h.gaps p (fun mem => out ⟨mem, fun eq => synced ?_⟩) held⟩
    rw [Set.mem_singleton_iff] at eq
    exact eq ▸ held

theorem settle (h : Decided X s) (o : Station) (was : ContextState) (must : Bool) : Decided (X \ {o}) (s.settle o was must) := by
  have decided := h.decideState o
  unfold State.settle
  dsimp only
  split
  · have only := changeNotice_only (s.decideState o) o
    exact decided.heldOnly (changeNotice_heldOnly _ _) (only .store (by decide))
      (congrArg StationControl.stn (only .station (by decide)))
  · exact decided

theorem endRestart (h : Decided X s) (o : Station) : Decided (X \ {o}) (s.endRestart o) := by
  have decided := h.decideState o
  have only := restartNotice_only (s.decideState o) o
  have only' := changeNotice_only ((s.decideState o).restartNotice o) o
  exact (decided.heldOnly (restartNotice_heldOnly _ _) (only .store (by decide))
    (congrArg StationControl.stn (only .station (by decide)))).heldOnly (changeNotice_heldOnly _ _) (only' .store (by decide))
      (congrArg StationControl.stn (only' .station (by decide)))

end Decided

end Sys2Proof.Machine
end

section
/-! A frame's insert, the frame, and the whole step at decided contexts (O12). -/

open Sys2Proof

namespace Sys2Proof.Machine

set_option Elab.async false

/-! ### The store after a frame's insert (R8, R10) -/

/-- The store has taken `e`, and lost the key `gone` if there is one. -/
structure Stored (s u : State) (e : Entry) (gone : Option Key) : Prop where
  only : Only [.store] s u
  own : u.store.own = s.store.own
  kept : ∀ k, gone ≠ some k → k ∈ s.store.peer.map (fun x => x.key) → k ∈ u.store.peer.map fun x => x.key
  lost : ∀ k, k ≠ e.key → k ∈ u.store.peer.map (fun x => x.key) → k ∈ s.store.peer.map fun x => x.key

/-- What the insert of a peer's frame comes to. -/
theorem insertFrame_cases {s : State} (o : Station) {e : Entry} (peer : e.key.origin ≠ s.stn) :
    ((s.insertFrame o e).after = s ∧ (s.insertFrame o e).ownEviction = false ∧ (s.insertFrame o e).answer.isStored = false) ∨
    ∃ u, (s.insertFrame o e).answer.isStored = true ∧
      ((Stored s u e none ∧ (s.insertFrame o e).after = u.reportFrom s.peerClaimable ∧ (s.insertFrame o e).ownEviction = false) ∨
        ∃ k, Stored s u e (some k) ∧ (s.insertFrame o e).after = (u.tellEviction o k).reportFrom s.peerClaimable ∧
          (s.insertFrame o e).ownEviction = (decide (k.origin = o) && s.toldOfEviction k)) := by
  cases found : s.store.find e.key with
  | some x =>
    have insert := insert_present (e := e) found s.stn s.setup.ownShare
    have eq : s.insertFrame o e = { answer := .present x.pins, ownEviction := false, after := s } := by
      simp only [State.insertFrame, insert]
    rw [eq]
    exact .inl ⟨rfl, rfl, rfl⟩
  | none =>
    have insert := insert_absent_peer (Store.find_eq_none.mp found) peer s.setup.ownShare
    rcases placeEntry_cases (s.store.peerFree s.setup.ownShare) s.store.peer e with ⟨-, place⟩ | ⟨-, v, rest, evict, place⟩ |
      ⟨-, -, place⟩ <;> rw [place] at insert
    · have eq : s.insertFrame o e = ⟨.stored none, false,
          (s.withStore { s.store with peer := s.store.peer ++ [e] }).reportFrom s.peerClaimable⟩ := by
        simp only [State.insertFrame, insert]
      rw [eq]
      refine .inr ⟨s.withStore { s.store with peer := s.store.peer ++ [e] }, rfl,
        .inl ⟨⟨withStore_only _ _, rfl, fun k _ mem => ?_, fun k other mem => ?_⟩, rfl, rfl⟩⟩
      · rw [State.withStore_store, List.map_append]
        exact List.mem_append.mpr (.inl mem)
      · rw [State.withStore_store, List.map_append] at mem
        refine (List.mem_append.mp mem).resolve_right fun new => other ?_
        simpa using new
    · obtain ⟨older, younger, whole, left, -, -⟩ := evictOldest_eq_some.mp evict
      have eq : s.insertFrame o e = ⟨.stored (some v.key), decide (v.key.origin = o) && s.toldOfEviction v.key,
          ((s.withStore { s.store with peer := rest ++ [e] }).tellEviction o v.key).reportFrom s.peerClaimable⟩ := by
        simp only [State.insertFrame, insert]
      rw [eq]
      refine .inr ⟨s.withStore { s.store with peer := rest ++ [e] }, rfl,
        .inr ⟨v.key, ⟨withStore_only _ _, rfl, fun k stays mem => ?_, fun k other mem => ?_⟩, rfl, rfl⟩⟩
      · rw [whole] at mem
        rw [State.withStore_store, left]
        have ne : k ≠ v.key := fun eq => stays (by rw [eq])
        simp only [List.map_append, List.map_cons, List.mem_append, List.mem_cons] at mem ⊢
        rcases mem with h | h | h
        · exact .inl (.inl h)
        · exact absurd h ne
        · exact .inl (.inr h)
      · rw [State.withStore_store, left] at mem
        rw [whole]
        simp only [List.map_append, List.map_cons, List.map_nil, List.mem_append, List.mem_cons, List.not_mem_nil, or_false] at mem ⊢
        rcases mem with (h | h) | h
        · exact .inl h
        · exact .inr (.inr h)
        · exact absurd h other
    · have eq : s.insertFrame o e = { answer := .refused, ownEviction := false, after := s } := by
        simp only [State.insertFrame, insert]
      rw [eq]
      exact .inl ⟨rfl, rfl, rfl⟩

/-- The origins whose view a store change can touch: that of the frame, and that of the evicted key. -/
def State.touches (s : State) (e : Entry) (gone : Option Key) : Set Station :=
  { p | (p = e.key.origin ∧ (s.ctx p).within e.key) ∨ ∃ k, gone = some k ∧ k.origin = p ∧ s.toldOfEviction k = true }

theorem toldOfEviction_iff (s : State) (k : Key) :
    s.toldOfEviction k = true ↔ (s.ctx k.origin).isSynced = true ∧ (s.ctx k.origin).within k := by
  simp only [State.toldOfEviction, Bool.and_eq_true, beq_iff_eq, decide_eq_true_eq, Context.within, and_assoc]
  exact and_congr_right fun _ => and_congr_left fun _ => eq_comm

namespace Decided

variable {X : Set Station} {s t : State}

theorem stored_view (h : Decided X s) {e : Entry} {gone : Option Key} (stored : Stored s t e gone) {o : Station}
    (synced : (s.ctx o).isSynced = true) (out : o ∉ s.touches e gone) : SameView o s t := by
  have same : t.ctx o = s.ctx o := State.ctx_congr (stored.only .contexts (by decide)) o
  have peer := h.not_own synced
  have stn : t.stn = s.stn := congrArg StationControl.stn (stored.only .station (by decide))
  refine ⟨by rw [same], fun n inside => ?_⟩
  have within : (s.ctx o).within ⟨o, (s.ctx o).epoch, n⟩ := ⟨rfl, by rw [(h.bounded o synced).extent_eq]; exact inside⟩
  have other : (⟨o, (s.ctx o).epoch, n⟩ : Key) ≠ e.key := fun eq => out (.inl ⟨congrArg Key.origin eq, eq ▸ within⟩)
  have stays : gone ≠ some ⟨o, (s.ctx o).epoch, n⟩ := fun eq =>
    out (.inr ⟨_, eq, rfl, (toldOfEviction_iff s _).mpr ⟨synced, within⟩⟩)
  have shared (u : State) (own : u.store.own = s.store.own) (ctx : u.ctx o = s.ctx o) : u.holds o n ↔
      (⟨o, (s.ctx o).epoch, n⟩ : Key) ∈ u.store.peer.map fun x => x.key := by
    rw [State.holds, ctx, own, List.mem_map]
    refine ⟨fun ⟨x, mem, key⟩ => ⟨x, ?_, key⟩, fun ⟨x, mem, key⟩ => ⟨x, List.mem_append.mpr (.inr mem), key⟩⟩
    exact (List.mem_append.mp mem).resolve_left fun own => peer (by rw [← h.owned x own, key])
  rw [shared t stored.own same, shared s rfl rfl]
  exact ⟨stored.lost _ other, stored.kept _ stays⟩

/-- The store takes an entry: the contexts it touches are to be decided afresh. -/
theorem stored (h : Decided X s) {e : Entry} {gone : Option Key} (stored : Stored s t e gone) :
    Decided (X ∪ s.touches e gone) t := by
  have same (o : Station) : t.ctx o = s.ctx o := State.ctx_congr (stored.only .contexts (by decide)) o
  have stn : t.stn = s.stn := congrArg StationControl.stn (stored.only .station (by decide))
  refine h.of_views stn (by rw [stored.own, stn]; exact h.owned) (fun o => by rw [same]) (fun o synced => ?_)
    fun o out synced => ⟨fun mem => out (.inl mem), by rw [same], h.stored_view stored ?_ fun mem => out (.inr mem)⟩
  · rw [same] at synced ⊢
    exact h.bounded o synced
  · rwa [same] at synced

end Decided

theorem Calm.reportFrom (s : State) (old : Nat) : Calm s (s.reportFrom old) :=
  have only := reportFrom_only s old
  .of_inner (.of_plain (bs := _) only) (reportFrom_inner s old) (.of_contexts (only .contexts (by decide))) (.reportFrom s old)

theorem Calm.afterDueInsert (s : State) (a : InsertAnswer) : Calm s (s.afterDueInsert a) := .of_only (afterDueInsert_only s a)

/-- The frame's insert can touch the view of its own origin (R25). -/
def State.insertTouches (s : State) (o : Station) (e : Entry) : Prop :=
  (s.insertFrame o e).answer.isStored = true ∧ (s.ctx o).within e.key ∨ (s.insertFrame o e).ownEviction = true

namespace Decided

variable {X : Set Station} {s t : State}

theorem tellEviction (h : Decided X s) (o : Station) (k : Key) :
    Decided (X \ { p | p = k.origin ∧ p ≠ o ∧ s.toldOfEviction k = true }) (s.tellEviction o k) := by
  unfold State.tellEviction
  split
  · rename_i told
    refine (h.settle k.origin _ true).mono fun p mem => ⟨mem.1, fun out => mem.2 out.1⟩
  · rename_i untold
    exact h.mono fun p mem => ⟨mem, fun out => untold ⟨out.1 ▸ out.2.1, out.2.2⟩⟩

theorem insertFrame (h : Decided X s) {o : Station} {e : Entry} (origin : e.key.origin = o) (peer : o ≠ s.stn)
    (still : o ∈ X ∨ ¬ s.insertTouches o e) : Decided X (s.insertFrame o e).after := by
  rcases insertFrame_cases (s := s) o (origin ▸ peer) with ⟨same, -, -⟩ | ⟨u, some, ⟨stored, after, -⟩ | ⟨k, stored, after, own⟩⟩
  · rw [same]
    exact h
  · rw [after]
    refine (Decided.calm ?_ (.reportFrom _ _))
    refine (h.stored stored).mono fun p mem => mem.elim id ?_
    rintro (⟨rfl, within⟩ | ⟨k, eq, -⟩)
    · rw [origin] at within ⊢
      exact still.resolve_right fun no => no (.inl ⟨some, within⟩)
    · cases eq
  · rw [after]
    refine Decided.calm ?_ (.reportFrom _ _)
    refine ((h.stored stored).tellEviction o k).mono fun p mem => mem.1.elim id ?_
    have told : u.toldOfEviction k = s.toldOfEviction k := by
      rw [State.toldOfEviction, State.toldOfEviction, State.ctx_congr (stored.only .contexts (by decide))]
    rintro (⟨rfl, within⟩ | ⟨k, eq, rfl, yes⟩)
    · rw [origin] at within ⊢
      exact still.resolve_right fun no => no (.inl ⟨some, within⟩)
    · cases eq
      have mine : k.origin = o := by
        by_contra other
        exact mem.2 ⟨rfl, other, told.trans yes⟩
      rw [mine]
      exact still.resolve_right fun no => no (.inr (by rw [own, yes, decide_eq_true mine]; rfl))

end Decided

end Sys2Proof.Machine
end

section
/-! STEADY and GAPPED stay decided, by each command (O12). -/

open Sys2Proof

namespace Sys2Proof.Machine

set_option Elab.async false

theorem Context.not_own_of_synced {c : Context} (synced : c.isSynced = true) : c.state ≠ .own := fun own => by
  rw [Context.not_synced_of_own own] at synced
  cases synced

theorem countRestart_place (c : Context) : c.countRestart.place = c.place ∧ c.countRestart.isSynced = c.isSynced := by
  unfold Context.countRestart
  split <;> exact ⟨rfl, rfl⟩

/-- A number behind next-due lies outside [next-due, horizon]. -/
theorem not_within_of_behind {c : Context} {k : Key} (behind : 32768 ≤ (k.seq - c.nextDue).toNat) : ¬ c.within k := fun within =>
  absurd (Nat.lt_of_lt_of_le within.2 (extent_le c)) (Nat.not_lt.mpr behind)

namespace Decided

variable {X : Set Station} {s t : State}

/-- What is decided but at `o` is decided when `o` is. -/
theorem closed {o : Station} (h : Decided ({o} \ {o}) s) : Decided ∅ s := h.mono (by simp)

theorem open_at (h : Decided ∅ s) (o : Station) : Decided {o} s := h.mono (Set.empty_subset _)

theorem setCtx_open {o : Station} (h : Decided {o} s) (peer : o ≠ s.stn) {c : Context} (state : c.state ≠ .own)
    (bounded : c.isSynced = true → c.Bounded) : Decided {o} (s.setCtx o c) :=
  (h.setCtx peer state bounded).mono (by simp)

theorem stn_of {bs : List Block} (only : Only bs s t) (out : Block.station ∉ bs := by decide) : t.stn = s.stn :=
  congrArg StationControl.stn (only .station out)

theorem syncFrame (h : Decided ∅ s) {m : Message} (unsynced : (s.ctx m.key.origin).state = .unsynced) :
    Decided ∅ (s.syncFrame m) := by
  have peer : m.key.origin ≠ s.stn := fun own => by
    rw [(h.ownState _).mpr own] at unsynced
    cases unsynced
  have starts := (h.open_at m.key.origin).setCtx_open (c := { s.ctx m.key.origin with
    state := .steady, epoch := m.key.epoch, nextDue := m.key.seq, horizon := m.key.seq, lossFloor := m.key.seq }) peer nofun
    fun _ => .single rfl rfl rfl
  exact (((starts.insertFrame (o := m.key.origin) (e := m.entry Pins.onlyDue) rfl peer (.inl rfl)).calm (.afterDueInsert _ _)).settle _ _ _).closed

theorem behindFrame (h : Decided ∅ s) {m : Message} (synced : (s.ctx m.key.origin).isSynced = true)
    (behind : 32768 ≤ (m.key.seq - (s.ctx m.key.origin).nextDue).toNat) : Decided ∅ (s.behindFrame m) := by
  have peer := h.not_own synced
  unfold State.behindFrame
  dsimp only
  split
  · exact (((h.open_at m.key.origin).insertFrame (o := m.key.origin) (e := m.entry Pins.none) rfl peer (.inl rfl)).settle _ _ _).closed
  · rename_i kept
    refine h.insertFrame rfl peer (.inr ?_)
    rintro (⟨-, within⟩ | own)
    · exact not_within_of_behind behind within
    · exact kept own

theorem windowFrame (h : Decided ∅ s) {m : Message} (synced : (s.ctx m.key.origin).isSynced = true)
    (near : (m.key.seq - (s.ctx m.key.origin).nextDue).toNat ≤
      ((s.ctx m.key.origin).lossFloor - (s.ctx m.key.origin).nextDue).toNat + 63)
    (ahead : (m.key.seq - (s.ctx m.key.origin).nextDue).toNat < 32768) : Decided ∅ (s.windowFrame m) := by
  have peer := h.not_own synced
  have inserted := ((h.open_at m.key.origin).insertFrame (o := m.key.origin) (e := m.entry Pins.onlyDue) rfl peer (.inl rfl)).calm (.afterDueInsert _
    (s.insertFrame m.key.origin (m.entry Pins.onlyDue)).answer)
  have settles := (Settles.insertFrame s m.key.origin (m.entry Pins.onlyDue)).trans (.afterDueInsert _
    (s.insertFrame m.key.origin (m.entry Pins.onlyDue)).answer)
  have stn := stn_of ((insertFrame_only s m.key.origin (m.entry Pins.onlyDue)).then (afterDueInsert_only _
    (s.insertFrame m.key.origin (m.entry Pins.onlyDue)).answer))
  unfold State.windowFrame
  dsimp only
  split
  · exact h
  · refine Decided.closed (Decided.settle (inserted.setCtx_open (by rw [stn]; exact peer) ?_ fun _ => ?_) _ _ _)
    · exact Context.not_own_of_synced ((settles.synced _).trans synced)
    · rw [settles.ctx m.key.origin]
      exact .of_place (c := { s.ctx m.key.origin with horizon := later (s.ctx m.key.origin).horizon m.key.seq }) rfl
        ((h.bounded _ synced).extend near ahead)

theorem farFrame (h : Decided ∅ s) {m : Message} (synced : (s.ctx m.key.origin).isSynced = true)
    (far : ((s.ctx m.key.origin).lossFloor - (s.ctx m.key.origin).nextDue).toNat + 63 <
      (m.key.seq - (s.ctx m.key.origin).nextDue).toNat)
    (ahead : (m.key.seq - (s.ctx m.key.origin).nextDue).toNat < 32768) : Decided ∅ (s.farFrame m) := by
  have peer := h.not_own synced
  unfold State.farFrame
  dsimp only
  split
  · exact h
  · have jumps := (h.open_at m.key.origin).setCtx_open (c := { s.ctx m.key.origin with
      lossFloor := m.key.seq - 63, horizon := m.key.seq }) peer (Context.not_own_of_synced synced) fun _ => .jump far ahead
    exact (((jumps.insertFrame (o := m.key.origin) (e := m.entry Pins.onlyDue) rfl peer (.inl rfl)).calm (.afterDueInsert _ _)).settle _ _ _).closed

theorem beginRestart (h : Decided ∅ s) {o : Station} (synced : (s.ctx o).isSynced = true) {epoch : Epoch}
    {nextDue horizon floor : SeqNum}
    (bounded : ∀ c : Context, c.nextDue = nextDue → c.horizon = horizon → c.lossFloor = floor → c.Bounded) :
    Decided {o} (s.beginRestart o epoch nextDue horizon floor) := by
  have peer := h.not_own synced
  obtain ⟨place, same⟩ := countRestart_place (s.ctx o)
  have counted := (h.open_at o).setCtx_open (c := (s.ctx o).countRestart) peer (Context.not_own_of_synced (same.trans synced))
    fun _ => (h.bounded o synced).of_place place
  have released : Decided {o} ((s.setCtx o (s.ctx o).countRestart).applyStore (s.store.restartRelease o (s.ctx o).epoch)) :=
    counted.calm (.applyStore (.restartRelease _ _ _) (.restartRelease _ _ _))
  have held : ((s.setCtx o (s.ctx o).countRestart).applyStore (s.store.restartRelease o (s.ctx o).epoch)).ctx o =
      (s.ctx o).countRestart := by
    rw [State.ctx_congr (applyStore_only _ _ .contexts (by decide)), State.ctx_setCtx, if_pos rfl]
  have stn := stn_of ((setCtx_only s o (s.ctx o).countRestart).then (applyStore_only _ (s.store.restartRelease o (s.ctx o).epoch)))
  refine released.setCtx_open (by rw [stn]; exact peer) ?_ fun _ => bounded _ rfl rfl rfl
  rw [held]
  exact Context.not_own_of_synced (same.trans synced)

theorem restartFrame (h : Decided ∅ s) {m : Message} (synced : (s.ctx m.key.origin).isSynced = true) :
    Decided ∅ (s.restartFrame m) := by
  have peer := h.not_own synced
  have begins : Decided {m.key.origin} (s.frameRestarts m) := h.beginRestart synced fun c due horizon floor =>
    (Context.Bounded.restartByFrame due horizon floor).1
  have stn := stn_of (frameRestarts_only s m)
  rw [restartFrame_eq]
  exact (((begins.insertFrame (o := m.key.origin) (e := m.entry Pins.onlyDue) rfl (by rw [stn]; exact peer) (.inl rfl)).calm
    (.afterDueInsert _ _)).endRestart _).closed

theorem classify (h : Decided ∅ s) (m : Message) : Decided ∅ (s.classify m) := by
  have classified := classify_cases h.bounded m
  generalize s.classify m = t at classified ⊢
  cases classified with
  | useless => exact h
  | stale => exact h.calm (.of_only (count_only _ _))
  | sync unsynced => exact h.syncFrame unsynced
  | restart synced => exact h.restartFrame synced
  | behind synced _ behind => exact h.behindFrame synced behind
  | window synced _ _ near ahead => exact h.windowFrame synced near ahead
  | far synced _ _ far ahead => exact h.farFrame synced far ahead

theorem takeBeacon (h : Decided ∅ s) (o : Station) (epoch : Epoch) (nextSeq : SeqNum) :
    Decided ∅ (s.takeBeacon o epoch nextSeq) := by
  by_cases synced : (s.ctx o).isSynced = true
  · have peer := h.not_own synced
    rw [takeBeacon_synced synced]
    split
    · rw [restartBeacon_eq]
      exact (Decided.endRestart (h.beginRestart synced fun c due horizon floor => .restartByBeacon due horizon floor) o).closed
    · split
      · unfold State.raiseByBeacon
        dsimp only
        split
        · rename_i raises
          refine Decided.closed (Decided.settle ((h.open_at o).setCtx_open peer ?_ fun _ => ?_) _ _ _)
          · exact Context.not_own_of_synced synced
          · exact ((h.bounded o synced).raise raises.1 raises.2).1
        · exact h
      · exact h
  · by_cases own : (s.ctx o).state = .own
    · have eq : s.takeBeacon o epoch nextSeq = s := by simp only [State.takeBeacon, own]
      rw [eq]
      exact h
    · have unsynced : (s.ctx o).state = .unsynced := by
        by_contra some
        exact synced (Context.synced_of some own)
      have eq : s.takeBeacon o epoch nextSeq = s.setCtx o { s.ctx o with
          state := .steady, epoch := epoch, nextDue := nextSeq, lossFloor := nextSeq, horizon := nextSeq - 1 } := by
        simp only [State.takeBeacon, unsynced]
      have peer : o ≠ s.stn := fun mine => own ((h.ownState o).mpr mine)
      have starts := (h.open_at o).setCtx_open (c := { s.ctx o with
        state := .steady, epoch := epoch, nextDue := nextSeq, lossFloor := nextSeq, horizon := nextSeq - 1 }) peer nofun
        fun _ => .empty rfl rfl rfl
      rw [eq]
      refine ⟨starts.ownState, starts.owned, starts.bounded, fun p _ held => ?_⟩
      by_cases same : p = o
      · subst same
        rw [State.ctx_setCtx, if_pos rfl]
        refine iff_of_false (by exact nofun) fun ⟨n, span, _⟩ => ?_
        rw [State.ctx_setCtx, if_pos rfl] at span
        have none := span.2
        dsimp only at none
        bv_omega
      · exact starts.gaps p (by simpa using same) held

theorem giveUp (h : Decided ∅ s) (o : Station) (epoch : Epoch) (value : SeqNum) : Decided ∅ (s.giveUp o epoch value) := by
  unfold State.giveUp
  dsimp only
  split
  · rename_i taken
    obtain ⟨synced, -, -⟩ := taken
    refine Decided.closed (Decided.settle ((h.open_at o).setCtx_open (h.not_own synced) ?_ fun _ => ?_) _ _ _)
    · exact Context.not_own_of_synced synced
    · exact (h.bounded o synced).giveUp value
  · exact h

theorem giveUpRun (h : Decided ∅ s) (i : Fin 8) : Decided ∅ (s.giveUpRun i) := by
  have frees (u : State) (i : Fin 8) (h : Decided ∅ u) : Decided ∅ (u.freeTracker i) :=
    have only := freeTracker_only u i
    h.heldOnly (freeTracker_heldOnly _ _) (only .store (by decide)) (stn_of only)
  have claims (u : State) (o : Station) (h : Decided ∅ u) : Decided ∅ (u.claimIfWaiting o) :=
    have only := claimIfWaiting_only u o
    h.heldOnly (claimIfWaiting_heldOnly _ _) (only .store (by decide)) (stn_of only)
  have gaveUp := h.giveUp (s.tracker i).origin (s.tracker i).epoch ((s.tracker i).runFirst + BitVec.ofNat 16 (s.tracker i).runCount)
  unfold State.giveUpRun
  dsimp only
  refine claims _ _ ?_
  split
  · exact frees _ _ gaveUp
  · exact gaveUp

theorem advance (h : Decided ∅ s) {o : Station} (synced : (s.ctx o).isSynced = true) {k : Nat} (few : k ≤ 32767)
    (reach : k ≤ (s.ctx o).extent) : Decided ∅ (s.advance o ((s.ctx o).nextDue + BitVec.ofNat 16 k)) := by
  have old := h.bounded o synced
  rw [old.extent_eq] at reach
  have eq : s.advance o ((s.ctx o).nextDue + BitVec.ofNat 16 k) =
      (s.setCtx o ((s.ctx o).advanceTo ((s.ctx o).nextDue + BitVec.ofNat 16 k))).settle o (s.ctx o).state true := if_pos synced
  rw [eq]
  refine Decided.closed (Decided.settle ((h.open_at o).setCtx_open (h.not_own synced) ?_ fun _ => ?_) _ _ _)
  · exact Context.not_own_of_synced synced
  · exact old.advanceTo few reach

theorem advanceRestart (h : Decided X s) (o : Station) : Decided X (s.advanceRestart o) := by
  have ctx (p : Station) : ((s.advanceRestart o).ctx p).state = (s.ctx p).state ∧
      ((s.advanceRestart o).ctx p).place = (s.ctx p).place := by
    rw [State.advanceRestart, State.ctx_setCtx]
    split
    · rename_i eq
      rw [eq]
      exact ⟨rfl, rfl⟩
    · exact ⟨rfl, rfl⟩
  refine h.of_views rfl h.owned (fun p => by rw [(ctx p).1]) (fun p held => ?_) fun p out _ => ⟨out, (ctx p).1, .of_same rfl (ctx p).2⟩
  rw [Context.isSynced, (ctx p).1] at held
  exact (h.bounded p held).of_place (ctx p).2

theorem table (table : Table s t) (h : Decided ∅ s) : Decided ∅ t := by
  induction table with
  | calm calm => exact h.calm calm
  | trans _ _ one two => exact two (one h)
  | frame s m => exact h.classify m
  | beacon s o epoch nextSeq => exact h.takeBeacon o epoch nextSeq
  | giveUp s i => exact h.giveUpRun i
  | advance s o k synced _ few reach => exact h.advance synced few reach
  | restart s o => exact h.advanceRestart o

theorem entered (h : Decided ∅ s) : Decided ∅ s.activated.offerAll := by
  have only := offerAll_only s.activated
  have station : s.activated.offerAll.station = s.activated.station := only .station (by decide)
  have stn : s.activated.offerAll.stn = s.stn := by rw [State.stn, station]; rfl
  have held : HeldOnly s s.activated.offerAll := offerAll_heldOnly s.activated
  exact h.heldOnly held (only .store (by decide)) stn

end Decided

theorem gapsDecided_exec {c : Instr} {s t : State} (e : exec c s = .next t) (store : StoreSound s) (contexts : ContextsSound s)
    (gaps : GapsDecided s) : GapsDecided t := by
  have h := Decided.of_sound store contexts gaps
  rcases exec_cases store contexts e with table | ⟨-, eq⟩ | ⟨epoch, fresh⟩
  · exact fun o => (h.table table).gaps o (by simp)
  · exact fun o => (eq ▸ h.entered : Decided ∅ t).gaps o (by simp)
  · exact fresh.gapsDecided

theorem ContextsSound.withPending {s : State} (h : ContextsSound s) (l : List Instr) : ContextsSound (s.withPending l) :=
  ⟨h.ownState, h.unsynced, h.bounded, h.due⟩

/-- Settles O12: every happening at a context ends with its state decided afresh, and the others' numbers stay where they are. -/
theorem gapsStayDecided : Obligations.GapsStayDecided := fun _ _ e _ store contexts gaps =>
  step_keeps (P := fun s => StoreSound s ∧ ContextsSound s ∧ GapsDecided s)
    (fun _ l ⟨store, contexts, gaps⟩ => ⟨store.withPending l, contexts.withPending l, gaps⟩)
    (fun _ ⟨_, _, h⟩ => h) (fun _ _ _ e ⟨store, contexts, gaps⟩ => gapsDecided_exec e store contexts gaps) e
    ⟨store, contexts, gaps⟩

end Sys2Proof.Machine
end

section
/-! Trackers on the present runs, and no origin that waits beside a FREE tracker (R50 to R54, O51). -/

open Sys2Proof

namespace Sys2Proof.Machine

set_option Elab.async false

/-- A tracker in service serves a synchronised origin, in the epoch followed unless its restart is under way (`R`), with the run
as it stands unless that is to be computed afresh (`X`). -/
structure Current (X R : Set Station) (s : State) (x : Tracker) : Prop where
  synced : x.state ≠ .free → (s.ctx x.origin).isSynced = true
  epoch : x.state ≠ .free → x.origin ∉ R → x.epoch = (s.ctx x.origin).epoch
  run : x.state ≠ .free → x.origin ∉ X → RunIs s x.origin x.runFirst x.runCount

/-- Every tracker is current, and while one is FREE in ACTIVE no GAPPED origin waits, those of `X` aside. -/
structure Served (X R : Set Station) (s : State) : Prop where
  sound : TrackersSound s
  current : ∀ i : Fin 8, Current X R s (s.tracker i)
  served : s.station.state = .active → (∃ i : Fin 8, (s.tracker i).state = .free) →
    ∀ o : Station, o ∉ X → (s.ctx o).state = .gapped → (s.ctx o).trackerHeld = true

theorem Current.mono {X Y R R' : Set Station} {s : State} {x : Tracker} (h : Current X R s x) (more : X ⊆ Y) (more' : R ⊆ R') :
    Current Y R' s x :=
  ⟨h.synced, fun busy out => h.epoch busy fun mem => out (more' mem), fun busy out => h.run busy fun mem => out (more mem)⟩

/-- A FREE tracker is current. -/
theorem Current.free {X R : Set Station} {s : State} {x : Tracker} (free : x.state = .free) : Current X R s x :=
  ⟨fun busy => absurd free busy, fun busy => absurd free busy, fun busy => absurd free busy⟩

theorem decideState_other (s : State) {o p : Station} (ne : p ≠ o) : (s.decideState o).ctx p = s.ctx p := by
  unfold State.decideState
  split
  · rw [State.ctx_setCtx, if_neg ne]
  · rfl

namespace Served

variable {X Y R R' : Set Station} {s t : State}

theorem of_runs (sound : TrackersSound s) (runs : RunsCurrent s) : Served ∅ ∅ s :=
  ⟨sound, fun i => ⟨runs.synced i, fun busy _ => runs.epoch i busy, fun busy _ => runs.run i busy⟩,
    fun active free o _ => runs.served active free o⟩

theorem runs (h : Served ∅ ∅ s) : RunsCurrent s :=
  ⟨fun i busy => (h.current i).epoch busy (by simp), fun i => (h.current i).synced, fun i busy => (h.current i).run busy (by simp),
    fun active free o => h.served active free o (by simp)⟩

theorem mono (h : Served X R s) (more : X ⊆ Y) (more' : R ⊆ R') : Served Y R' s :=
  ⟨h.sound, fun i => (h.current i).mono more more', fun active free o out => h.served active free o fun mem => out (more mem)⟩

/-- Tracker-held flags follow the trackers in service. -/
theorem held_of_stands (h : TrackersSound s) (k : TrackersSound t) (stands : RunsStand s t) (o : Station) :
    (t.ctx o).trackerHeld = (s.ctx o).trackerHeld := by
  rw [Bool.eq_iff_iff, h.held, k.held]
  refine exists_congr fun i => ?_
  obtain ⟨free, origin, -⟩ := stands i
  rw [origin]
  exact and_congr_left fun _ => not_congr free

/-- Where trackers keep their runs and the views stand, what was served is. -/
theorem of_views (h : Served X R s) (bounded : ∀ o : Station, (s.ctx o).isSynced = true → (s.ctx o).Bounded) (sound : TrackersSound t)
    (stands : RunsStand s t) (active : t.station.state = .active → s.station.state = .active)
    (synced : ∀ o, (s.ctx o).isSynced = true → (t.ctx o).isSynced = true)
    (epoch : ∀ o, o ∉ R' → (s.ctx o).isSynced = true → o ∉ R ∧ (t.ctx o).epoch = (s.ctx o).epoch)
    (views : ∀ o, o ∉ Y → (s.ctx o).isSynced = true → o ∉ X ∧ SameView o s t)
    (state : ∀ o, o ∉ Y → (t.ctx o).state = .gapped → o ∉ X ∧ (s.ctx o).state = .gapped) : Served Y R' t where
  sound := sound
  current i := by
    obtain ⟨free, origin, era, first, count⟩ := stands i
    have old := h.current i
    refine ⟨fun busy => ?_, fun busy out => ?_, fun busy out => ?_⟩ <;> have busy' := fun f => busy (free.mpr f)
    · rw [origin]
      exact synced _ (old.synced busy')
    · rw [origin] at out ⊢
      obtain ⟨out', same⟩ := epoch _ out (old.synced busy')
      rw [era, same]
      exact old.epoch busy' out'
    · rw [origin] at out ⊢
      obtain ⟨out', view⟩ := views _ out (old.synced busy')
      rw [first, count]
      exact view.run (bounded _ (old.synced busy')) (old.run busy' out')
  served on free o out gapped := by
    obtain ⟨i, free⟩ := free
    obtain ⟨out', gapped'⟩ := state o out gapped
    rw [held_of_stands h.sound sound stands]
    exact h.served (active on) ⟨i, (stands i).1.mp free⟩ o out' gapped'

theorem calm {Z : Set Station} (h : Served X R s) (decided : Decided Z s) (calm : Calm s t) : Served X R t := by
  rcases calm.pool h.sound with ⟨stands, active⟩ | ⟨free, off⟩
  · have state (o : Station) : (t.ctx o).state = (s.ctx o).state := (calm.places o).1
    refine h.of_views decided.bounded (calm.sound h.sound) stands active.mp (fun o held => ?_) (fun o out held => ⟨out, ?_⟩)
      (fun o out held => ⟨out, decided.calm_view calm (decided.not_own held)⟩) fun o out gapped => ⟨out, by rwa [state] at gapped⟩
    · rwa [Context.isSynced, state]
    · exact congrArg Prod.fst ((calm.places o).2 (decided.not_own held)).1
  · exact ⟨calm.sound h.sound, fun i => .free (free i), fun active => absurd active off⟩

/-- A change of the contexts alone at `o`, whose run is to be computed afresh. -/
theorem setCtx {Z : Set Station} (h : Served X R s) (decided : Decided Z s) {o : Station} {c : Context}
    (held : c.trackerHeld = (s.ctx o).trackerHeld) (synced : (s.ctx o).isSynced = true → c.isSynced = true)
    (less : R ⊆ R') (epoch : o ∈ R' ∨ (s.ctx o).isSynced = false ∨ c.epoch = (s.ctx o).epoch) :
    Served (insert o X) R' (s.setCtx o c) := by
  have other {p : Station} (ne : p ≠ o) : (s.setCtx o c).ctx p = s.ctx p := by rw [State.ctx_setCtx, if_neg ne]
  refine h.of_views decided.bounded (h.sound.inner (.setCtx s o c held)) (.of_pool rfl) id (fun p before => ?_) (fun p out before => ?_)
    (fun p out _ => ?_) fun p out gapped => ?_
  · rw [State.ctx_setCtx]
    split
    · rename_i eq
      exact synced (eq ▸ before)
    · exact before
  · refine ⟨fun mem => out (less mem), ?_⟩
    rw [State.ctx_setCtx]
    split
    · rename_i eq
      subst eq
      rcases epoch with mem | off | same
      · exact absurd mem out
      · rw [before] at off
        cases off
      · exact same
    · rfl
  · obtain ⟨ne, out⟩ := not_or.mp out
    exact ⟨out, .of_same rfl (by rw [other ne])⟩
  · obtain ⟨ne, out⟩ := not_or.mp out
    exact ⟨out, by rwa [other ne] at gapped⟩

/-- The store takes an entry. -/
theorem stored {Z : Set Station} (h : Served X R s) (decided : Decided Z s) {e : Entry} {gone : Option Key}
    (stored : Stored s t e gone) : Served (X ∪ s.touches e gone) R t := by
  have same (o : Station) : t.ctx o = s.ctx o := State.ctx_congr (stored.only .contexts (by decide)) o
  have station : t.station = s.station := stored.only .station (by decide)
  refine h.of_views decided.bounded (.of_only stored.only h.sound) (.of_pool (stored.only .pool (by decide)))
    (by rw [station]; exact id) (fun o held => by rwa [same]) (fun o out _ => ⟨out, by rw [same]⟩)
    (fun o out held => ⟨fun mem => out (.inl mem), decided.stored_view stored held fun mem => out (.inr mem)⟩)
    fun o out gapped => ⟨fun mem => out (.inl mem), by rwa [same] at gapped⟩

/-- The state of `o` is decided afresh, before its run is. -/
theorem decideState {Z : Set Station} (h : Served X R s) (decided : Decided Z s) {o : Station} (mem : o ∈ X) :
    Served X R (s.decideState o) := by
  have settles := Settles.decideState s o
  have only := decideState_only s o
  have store : (s.decideState o).store = s.store := only .store (by decide)
  have station : (s.decideState o).station = s.station := only .station (by decide)
  have pool : (s.decideState o).pool = s.pool := only .pool (by decide)
  refine h.of_views decided.bounded (h.sound.inner (decideState_inner s o)) (.of_pool pool) (by rw [station]; exact id)
    (fun p held => (settles.synced p).trans held) (fun p out _ => ⟨out, congrArg Prod.fst (settles.place p)⟩)
    (fun p out _ => ⟨out, .of_same store (settles.place p)⟩) fun p out gapped => ⟨out, ?_⟩
  have ne : p ≠ o := fun eq => out (eq ▸ mem)
  rwa [decideState_other s ne] at gapped

end Served

/-! ### Trackers that take a run, or are freed -/

theorem Current.offering {X R : Set Station} {s t : State} {x : Tracker} (h : Current X R s x) (offering : Offering s t)
    (bounded : ∀ o : Station, (s.ctx o).isSynced = true → (s.ctx o).Bounded) : Current X R t x := by
  have state (o : Station) : (t.ctx o).isSynced = (s.ctx o).isSynced := by rw [offering.held o]; rfl
  have place (o : Station) : (t.ctx o).place = (s.ctx o).place := by rw [offering.held o]; rfl
  refine ⟨fun busy => (state _).trans (h.synced busy), fun busy out => ?_, fun busy out => ?_⟩
  · rw [h.epoch busy out]
    exact (congrArg Prod.fst (place _)).symm
  · exact (SameView.of_same offering.store (place _)).run (bounded _ (h.synced busy)) (h.run busy out)

namespace Served

variable {X Y R : Set Station} {s t : State}

/-- A tracker in service takes the run of its origin (R52). -/
theorem adjust {Z : Set Station} (h : Served X R s) (decided : Decided Z s) {i : Fin 8} {x : Tracker} {o : Station}
    (serves : (s.tracker i).state ≠ .free) (origin : (s.tracker i).origin = o) (sound : TrackersSound (s.setTracker i x))
    (current : Current (X \ {o}) R s x) (busy : x.state ≠ .free) : Served (X \ {o}) R (s.setTracker i x) := by
  have offering : Offering s (s.setTracker i x) := ⟨rfl, rfl, .of_contexts rfl⟩
  refine ⟨sound, fun j => Current.offering ?_ offering decided.bounded, fun active free p out gapped => ?_⟩
  · rw [State.tracker_setTracker]
    split
    · exact current
    · rename_i other
      have old := h.current j
      refine ⟨old.synced, old.epoch, fun busy out => old.run busy fun mem => out ⟨mem, fun same => other ?_⟩⟩
      exact h.sound.single j i busy serves (same.trans origin.symm)
  · obtain ⟨j, free⟩ := free
    have free' : (s.tracker j).state = .free := by
      rw [State.tracker_setTracker] at free
      split at free
      · exact absurd free busy
      · exact free
    by_cases eq : p = o
    · exact (h.sound.held p).mpr ⟨i, serves, origin.trans eq.symm⟩
    · exact h.served active ⟨j, free'⟩ p (fun mem => out ⟨mem, eq⟩) gapped

/-- A tracker is claimed with the run of an origin, in place of what it may have been (R54, R55). -/
theorem claimed {Z : Set Station} (decided : Decided Z s) {i : Fin 8} {o : Station} {first : SeqNum} {count : Nat}
    (synced : (s.ctx o).isSynced = true) (run : RunIs s o first count) (current : ∀ j, j ≠ i → Current X R s (s.tracker j))
    (served : s.station.state = .active → (∃ j, j ≠ i ∧ (s.tracker j).state = .free) → ∀ p, p ∉ X → p ≠ o →
      (s.ctx p).state = .gapped → (s.ctx p).trackerHeld = true)
    (sound : TrackersSound ((s.setTracker i (s.claimedTracker o first count)).setCtx o { s.ctx o with trackerHeld := true })) :
    Served (X \ {o}) R ((s.setTracker i (s.claimedTracker o first count)).setCtx o { s.ctx o with trackerHeld := true }) := by
  have offering : Offering s ((s.setTracker i (s.claimedTracker o first count)).setCtx o { s.ctx o with trackerHeld := true }) :=
    ⟨rfl, rfl, setCtx_heldOnly s o true⟩
  obtain ⟨-, serves, origin, -⟩ := claimedTracker_consistent s o first count
  have alone (j : Fin 8) (ne : j ≠ i) (busy : (s.tracker j).state ≠ .free) : (s.tracker j).origin ≠ o := fun same => ne (by
    have mine := sound.single j i
    rw [claim_tracker, claim_tracker, if_neg ne, if_pos rfl] at mine
    exact mine busy serves (same.trans origin.symm))
  refine ⟨sound, fun j => Current.offering ?_ offering decided.bounded, fun active free p out gapped => ?_⟩
  · rw [claim_tracker]
    split
    · exact ⟨fun _ => synced, fun _ _ => rfl, fun _ _ => run⟩
    · rename_i ne
      have old := current j ne
      exact ⟨old.synced, old.epoch, fun busy out => old.run busy fun mem => out ⟨mem, alone j ne busy⟩⟩
  · obtain ⟨j, free⟩ := free
    rw [claim_tracker] at free
    split at free
    · exact absurd free serves
    · rename_i ne
      rw [State.ctx_setCtx] at gapped ⊢
      split
      · rfl
      · rename_i eq
        rw [if_neg eq] at gapped
        exact served active ⟨j, ne, free⟩ p (fun mem => out ⟨mem, eq⟩) eq gapped

/-- What is released is not in service (R53). -/
theorem release {Z : Set Station} (h : Served X R s) (decided : Decided Z s) {i : Fin 8} (serves : (s.tracker i).state ≠ .free) :
    ∀ j, Current (X \ {(s.tracker i).origin}) (R \ {(s.tracker i).origin}) (s.release i) ((s.release i).tracker j) := fun j => by
  refine Current.offering (s := s) ?_ ⟨release_store s i, release_station s i, release_heldOnly s i⟩ decided.bounded
  rw [release_tracker]
  split
  · exact .free rfl
  · rename_i ne
    have old := h.current j
    have alone (busy : (s.tracker j).state ≠ .free) : (s.tracker j).origin ≠ (s.tracker i).origin := fun same =>
      ne (h.sound.single j i busy serves same)
    exact ⟨old.synced, fun busy out => old.epoch busy fun mem => out ⟨mem, alone busy⟩,
      fun busy out => old.run busy fun mem => out ⟨mem, alone busy⟩⟩

end Served

end Sys2Proof.Machine
end

section
/-! Notices at the pool bring the trackers up to date (R44, R51 to R55, R70, O51). -/

open Sys2Proof

namespace Sys2Proof.Machine

set_option Elab.async false

/-- A GAPPED context that is decided has a run. -/
theorem Decided.run_of_gapped {Z : Set Station} {s : State} (decided : Decided Z s) {o : Station} (out : o ∉ Z)
    (gapped : (s.ctx o).state = .gapped) : ∃ first count, s.runOf o = some (first, count) ∧ RunIs s o first count := by
  have synced := Context.synced_of_gapped gapped
  obtain ⟨n, missing⟩ := (decided.gaps o out synced).mp gapped
  obtain ⟨-, none⟩ | found := s.runOf_cases o (decided.bounded o synced).horizon
  · exact absurd missing (none n)
  · exact found

namespace Served

variable {X R : Set Station} {s t : State}

/-- A freed tracker leaves every other origin served, and none waits beside it (R53, R55). -/
theorem freeTracker {i : Fin 8} {o : Station} (h : Served {o} R s) (decided : Decided ∅ s)
    (serves : (s.tracker i).state ≠ .free) (origin : (s.tracker i).origin = o) : Served ∅ (R \ {o}) (s.freeTracker i) := by
  have sound := h.sound.inner (freeTracker_inner s i)
  have current (j : Fin 8) : Current ∅ (R \ {o}) (s.release i) ((s.release i).tracker j) := by
    have := h.release decided serves j
    rw [origin] at this
    exact this.mono (by simp) (fun _ => id)
  have released : Decided ∅ (s.release i) := decided.heldOnly (release_heldOnly s i) (release_store s i)
    (congrArg StationControl.stn (release_station s i))
  rw [freeTracker_offers serves] at sound ⊢
  split
  · rename_i active
    rw [if_pos active] at sound
    by_cases waits : ∃ p, (s.release i).waiting p = true
    · obtain ⟨p, found⟩ : ∃ p, (rotation ((s.release i).tracker i).lastOrigin).find? (s.release i).waiting = some p := by
        cases found : (rotation ((s.release i).tracker i).lastOrigin).find? (s.release i).waiting with
        | some p => exact ⟨p, rfl⟩
        | none =>
          obtain ⟨p, waits⟩ := waits
          exact absurd waits (List.find?_eq_none.mp found p (mem_rotation _ p))
      have good := (rotation_find found).1
      obtain ⟨gapped, clear⟩ := (release_waiting s i p).mp good
      obtain ⟨first, count, run, is⟩ := released.run_of_gapped (by simp) ((waiting_iff _ p).mp good).1
      have offers : (s.release i).offer i = ((s.release i).setTracker i ((s.release i).claimedTracker p first count)).setCtx p
          { (s.release i).ctx p with trackerHeld := true } := by
        rw [State.offer, found]
        exact claim_of_run run i
      rw [offers] at sound ⊢
      refine (claimed released (Context.synced_of_gapped ((waiting_iff _ p).mp good).1) is (fun j _ => current j) ?_ sound).mono
        (by simp) fun _ => id
      rintro - ⟨j, ne, free⟩ q - other gappedQ
      rw [release_tracker, if_neg ne] at free
      have stays := h.served active ⟨j, free⟩
      have mine : p = o := by
        by_contra foreign
        have taken := stays p (by simpa using foreign) gapped
        rcases clear with no | same
        · rw [taken] at no
          cases no
        · exact foreign (same.trans origin)
      rw [release_heldOnly s i q] at gappedQ
      rw [release_ctx, if_neg (by rw [origin, ← mine]; exact other)]
      exact stays q (by rw [← mine]; simpa using other) gappedQ
    · have none (p : Station) : (s.release i).waiting p = false := Bool.eq_false_iff.mpr fun yes => waits ⟨p, yes⟩
      rw [offer_of_none none] at sound ⊢
      refine ⟨sound, current, fun _ _ p _ gapped => ?_⟩
      by_contra clear
      exact waits ⟨p, (waiting_iff _ p).mpr ⟨gapped, Bool.eq_false_iff.mpr clear⟩⟩
  · rename_i inactive
    rw [if_neg inactive] at sound
    exact ⟨sound, current, fun active => absurd (release_station s i ▸ active) inactive⟩

/-- What a change notice makes of the tracker in service. -/
theorem notice_adjusts {x : Tracker} {setup : Setup} {delay : Nat} {first : SeqNum} {count : Nat} (busy : x.state ≠ .free) :
    let y := if first = x.runFirst then { x with runCount := count }
      else if x.state = .wait then
        if (x.asked.any fun r => decide ((first - r.1).toNat < r.2)) = true then
          { x with runFirst := first, runCount := count, attempts := 0, timer := .repairTimeout setup.repairTimeout }
        else { x with runFirst := first, runCount := count, attempts := 0, state := .delay, timer := .requestDelay delay }
      else { x with runFirst := first, runCount := count, attempts := 0 }
    y.state ≠ .free ∧ y.origin = x.origin ∧ y.epoch = x.epoch ∧ y.runFirst = first ∧ y.runCount = count := by
  dsimp only
  split
  · rename_i same
    exact ⟨busy, rfl, rfl, same.symm, rfl⟩
  · split
    · split
      · exact ⟨busy, rfl, rfl, rfl, rfl⟩
      · exact ⟨nofun, rfl, rfl, rfl, rfl⟩
    · exact ⟨busy, rfl, rfl, rfl, rfl⟩

/-- A change notice brings the origin up to date (R52, R54). -/
theorem changeNotice {Z : Set Station} {o : Station} (h : Served X R s) (decided : Decided Z s) (out : o ∉ Z) (era : o ∉ R)
    (runs : (∀ i, (s.tracker i).state ≠ .free → (s.tracker i).origin = o → ∃ n, s.missing o n) ∨ X = {o} ∧ Z = ∅) :
    Served (X \ {o}) R (s.changeNotice o) := by
  have sound := h.sound.inner (changeNotice_inner s o)
  cases serving : s.serving o with
  | some i =>
    obtain ⟨busy, origin⟩ := serving_spec serving
    have synced := (h.current i).synced busy
    rw [origin] at synced
    have bounded := decided.bounded o synced
    obtain ⟨adjusts, frees⟩ := changeNotice_serving h.sound bounded busy origin
    obtain ⟨-, none⟩ | ⟨first, count, -, run⟩ := s.runOf_cases o bounded.horizon
    · rcases runs with some | ⟨rfl, rfl⟩
      · obtain ⟨n, missing⟩ := some i busy origin
        exact absurd missing (none n)
      · rw [frees none]
        exact (h.freeTracker decided busy origin).mono (by simp) (by simp)
    · rw [adjusts first count run] at sound ⊢
      obtain ⟨busy', origin', epoch', first', count'⟩ := notice_adjusts (x := s.tracker i) (setup := s.setup)
        (delay := s.setup.reqBase + (s.stn - o).toNat) (first := first) (count := count) busy
      refine h.adjust decided busy origin sound ⟨fun _ => ?_, fun _ _ => ?_, fun _ _ => ?_⟩ busy'
      · rw [origin', origin]
        exact synced
      · rw [epoch', origin']
        exact (h.current i).epoch busy (by rw [origin]; exact era)
      · rw [origin', first', count', origin]
        exact run
  | none =>
    have unserved := serving_eq_none.mp serving
    have notice : s.changeNotice o = s.claimIfWaiting o := by rw [State.changeNotice, serving]
    rw [notice] at sound ⊢
    have stays (held : s.station.state = .active → (∃ i, (s.tracker i).state = .free) → (s.ctx o).state = .gapped →
        (s.ctx o).trackerHeld = true) : Served (X \ {o}) R s := by
      refine ⟨h.sound, fun j => ?_, fun active free p out gapped => ?_⟩
      · have old := h.current j
        exact ⟨old.synced, old.epoch, fun busy out => old.run busy fun mem => out ⟨mem, unserved j busy⟩⟩
      · by_cases eq : p = o
        · exact eq ▸ held active free (eq ▸ gapped)
        · exact h.served active free p (fun mem => out ⟨mem, eq⟩) gapped
    unfold State.claimIfWaiting at sound ⊢
    split
    · rename_i waits
      rw [if_pos waits] at sound
      simp only [State.isActive, Bool.and_eq_true, beq_iff_eq, waiting_iff] at waits
      obtain ⟨active, gapped, -⟩ := waits
      obtain ⟨first, count, run, is⟩ := decided.run_of_gapped out gapped
      split
      · rename_i i free
        simp only [free] at sound
        rw [claim_of_run run i] at sound ⊢
        refine claimed decided (Context.synced_of_gapped gapped) is (fun j _ => h.current j) ?_ sound
        rintro active ⟨j, -, free⟩ p out - gapped
        exact h.served active ⟨j, free⟩ p out gapped
      · rename_i none
        refine stays fun _ ⟨i, free⟩ => ?_
        have := List.find?_eq_none.mp none i (mem_allTrackers i)
        simp [free] at this
    · rename_i idle
      refine stays fun active _ gapped => ?_
      by_contra clear
      refine idle ?_
      simp only [State.isActive, Bool.and_eq_true, beq_iff_eq, waiting_iff]
      exact ⟨active, gapped, Bool.eq_false_iff.mpr clear⟩

end Served

end Sys2Proof.Machine
end

section
/-! Frames, give-ups and records leave the trackers up to date (O51). -/

open Sys2Proof

namespace Sys2Proof.Machine

set_option Elab.async false

/-- A state decided afresh leaves what is missing. -/
theorem decideState_missing (s : State) (o p : Station) (n : SeqNum) : (s.decideState o).missing p n ↔ s.missing p n :=
  (SameView.of_same (decideState_only s o .store (by decide)) ((Settles.decideState s o).place p)).missing n

theorem settle_notice {s : State} {o : Station} {was : ContextState} {must : Bool}
    (notice : (must || ((s.decideState o).ctx o).state != was) = true) :
    s.settle o was must = (s.decideState o).changeNotice o := if_pos notice

namespace Served

variable {X R Z : Set Station} {s t : State}

theorem decideState_tracker (s : State) (o : Station) (i : Fin 8) : (s.decideState o).tracker i = s.tracker i :=
  State.tracker_congr (congrArg _ (decideState_only s o .pool (by decide))) i

/-- The end of a happening at `o` with a change notice (R25, R44). -/
theorem settle {o : Station} (h : Served X R s) (decided : Decided Z s) (mem : o ∈ X) (era : o ∉ R) (was : ContextState)
    (runs : (∀ i, (s.tracker i).state ≠ .free → (s.tracker i).origin = o → ∃ n, s.missing o n) ∨ X = {o} ∧ Z \ {o} = ∅) :
    Served (X \ {o}) R (s.settle o was true) := by
  rw [settle_notice (Bool.true_or _)]
  refine (h.decideState decided mem).changeNotice (decided.decideState o) (by simp) era (runs.imp_left fun some i busy origin => ?_)
  rw [decideState_tracker] at busy origin
  obtain ⟨n, missing⟩ := some i busy origin
  exact ⟨n, (decideState_missing s o o n).mpr missing⟩

/-- The end of a happening at `o`, with or without a change notice (R25, R44). -/
theorem settle_either {o : Station} (h : Served {o} R s) (decided : Decided {o} s) (era : o ∉ R) (was : ContextState) (must : Bool)
    (quiet : must = false → ((s.decideState o).ctx o).state = was → Served ∅ R (s.decideState o)) :
    Served ∅ R (s.settle o was must) := by
  by_cases notice : (must || ((s.decideState o).ctx o).state != was) = true
  · have eq : s.settle o was must = s.settle o was true := (settle_notice notice).trans (settle_notice (Bool.true_or _)).symm
    rw [eq]
    exact (h.settle decided rfl era was (.inr ⟨rfl, Set.sdiff_self⟩)).mono (by simp) fun _ => id
  · have eq : s.settle o was must = s.decideState o := if_neg notice
    rw [eq]
    simp only [Bool.or_eq_true, bne_iff_ne, ne_eq, not_or, not_not, Bool.not_eq_true] at notice
    exact quiet notice.1 notice.2

/-- An origin that is not GAPPED and that no tracker serves needs nothing. -/
theorem close_unserved {o : Station} (h : Served {o} R s) (calm : (s.ctx o).state ≠ .gapped)
    (unserved : ∀ i, (s.tracker i).state ≠ .free → (s.tracker i).origin ≠ o) : Served ∅ R s := by
  refine ⟨h.sound, fun i => ?_, fun active free p _ gapped => h.served active free p ?_ gapped⟩
  · have old := h.current i
    exact ⟨old.synced, old.epoch, fun busy _ => old.run busy (unserved i busy)⟩
  · intro mem
    rw [Set.mem_singleton_iff] at mem
    exact calm (mem ▸ gapped)

/-- The end of a happening at an origin that no tracker serves, which was not GAPPED (R25, R44). -/
theorem settle_unserved {o : Station} (h : Served {o} R s) (decided : Decided {o} s) (era : o ∉ R) {was : ContextState} (must : Bool)
    (calm : was ≠ .gapped) (unserved : ∀ i, (s.tracker i).state ≠ .free → (s.tracker i).origin ≠ o) :
    Served ∅ R (s.settle o was must) := by
  refine h.settle_either decided era was must fun _ state => ?_
  refine (h.decideState decided rfl).close_unserved (by rw [state]; exact calm) fun i => ?_
  rw [decideState_tracker]
  exact unserved i

theorem afterDueInsert (h : Served X R s) (decided : Decided Z s) (a : InsertAnswer) : Served X R (s.afterDueInsert a) :=
  h.calm decided (.afterDueInsert s a)

/-- A frame's insert, with the eviction of another context's entry (R8, R10). -/
theorem insertFrame {o : Station} (h : Served X R s) (decided : Decided Z s) (inX : X ⊆ {o}) (inR : R ⊆ {o}) {e : Entry}
    (origin : e.key.origin = o) (peer : o ≠ s.stn) (still : o ∈ X ∨ ¬ s.insertTouches o e) :
    Served X R (s.insertFrame o e).after := by
  rcases insertFrame_cases (s := s) o (origin ▸ peer) with ⟨same, -, -⟩ | ⟨u, some, ⟨stored, after, -⟩ | ⟨k, stored, after, own⟩⟩
  · rw [same]
    exact h
  · rw [after]
    refine Served.calm ?_ (decided.stored stored) (.reportFrom _ _)
    refine (h.stored decided stored).mono (fun p mem => mem.elim id ?_) fun _ => id
    rintro (⟨rfl, within⟩ | ⟨k, eq, -⟩)
    · rw [origin] at within ⊢
      exact still.resolve_right fun no => no (.inl ⟨some, within⟩)
    · cases eq
  · rw [after]
    have ctx (p : Station) : u.ctx p = s.ctx p := State.ctx_congr (stored.only .contexts (by decide)) p
    have pool (i : Fin 8) : u.tracker i = s.tracker i := State.tracker_congr (congrArg _ (stored.only .pool (by decide))) i
    have told : u.toldOfEviction k = s.toldOfEviction k := by rw [State.toldOfEviction, State.toldOfEviction, ctx]
    have first := h.stored decided stored
    have there := decided.stored stored
    refine Served.calm ?_ (there.tellEviction o k) (.reportFrom _ _)
    unfold State.tellEviction
    split
    · rename_i other
      obtain ⟨foreign, yes⟩ := other
      refine (first.settle there (.inr (.inr ⟨k, rfl, rfl, told.symm.trans yes⟩)) (fun mem => foreign (inR mem)) _
        (.inl fun i busy serves => ?_)).mono (fun p mem => mem.1.elim id ?_) fun _ => id
      · rw [pool] at busy serves
        have run := (h.current i).run busy fun mem => foreign (serves ▸ inX mem)
        rw [serves] at run
        obtain ⟨span, absent⟩ := run.missing
        have synced := (h.current i).synced busy
        rw [serves] at synced
        refine ⟨_, by rw [ctx]; exact span, fun holds => absent ?_⟩
        have stn : u.stn = s.stn := congrArg StationControl.stn (stored.only .station (by decide))
        rw [decided.holds_iff (decided.not_own synced)]
        rw [there.holds_iff (by rw [stn]; exact decided.not_own synced), ctx] at holds
        exact stored.lost _ (fun eq => foreign ((congrArg Key.origin eq).trans origin)) holds
      · rintro (⟨rfl, within⟩ | ⟨j, eq, rfl, -⟩)
        · rw [origin] at within ⊢
          exact still.resolve_right fun no => no (.inl ⟨some, within⟩)
        · cases eq
          exact absurd rfl mem.2
    · rename_i mine
      refine first.mono (fun p mem => mem.elim id ?_) fun _ => id
      rintro (⟨rfl, within⟩ | ⟨j, eq, rfl, yes⟩)
      · rw [origin] at within ⊢
        exact still.resolve_right fun no => no (.inl ⟨some, within⟩)
      · cases eq
        have same : k.origin = o := by
          by_contra other
          exact mine ⟨other, told.trans yes⟩
        rw [same]
        exact still.resolve_right fun no => no (.inr (by rw [own, yes, decide_eq_true same]; rfl))

/-- The end of a restart (R38, R70). -/
theorem endRestart {o : Station} (h : Served {o} {o} s) (decided : Decided {o} s) : Served ∅ ∅ (s.endRestart o) := by
  have first := h.decideState decided rfl
  have there := (decided.decideState o).closed
  have only := restartNotice_only (s.decideState o) o
  have there' : Decided ∅ ((s.decideState o).restartNotice o) := there.heldOnly (restartNotice_heldOnly _ _)
    (only .store (by decide)) (Decided.stn_of only)
  have freed : Served {o} ∅ ((s.decideState o).restartNotice o) := by
    unfold State.restartNotice
    cases serving : (s.decideState o).serving o with
    | some i =>
      obtain ⟨busy, origin⟩ := serving_spec serving
      exact (first.freeTracker there busy origin).mono (Set.empty_subset _) (by simp)
    | none =>
      have unserved := serving_eq_none.mp serving
      exact ⟨first.sound, fun j => ⟨(first.current j).synced, fun busy _ => (first.current j).epoch busy (unserved j busy),
        (first.current j).run⟩, first.served⟩
  exact (freed.changeNotice there' (by simp) (by simp) (.inr ⟨rfl, rfl⟩)).mono (by simp) fun _ => id

end Served

end Sys2Proof.Machine
end

section
/-! The trackers up to date after each command (O51). -/

open Sys2Proof

namespace Sys2Proof.Machine

set_option Elab.async false

/-- The context of an UNSYNCED origin starts at the frame's number (R29). -/
def State.syncs (s : State) (m : Message) : State :=
  s.setCtx m.key.origin { s.ctx m.key.origin with
    state := .steady, epoch := m.key.epoch, nextDue := m.key.seq, horizon := m.key.seq, lossFloor := m.key.seq }

theorem syncFrame_eq (s : State) (m : Message) : s.syncFrame m =
    (((s.syncs m).insertFrame m.key.origin (m.entry Pins.onlyDue)).after.afterDueInsert
      ((s.syncs m).insertFrame m.key.origin (m.entry Pins.onlyDue)).answer).settle m.key.origin .steady
        (((s.syncs m).insertFrame m.key.origin (m.entry Pins.onlyDue)).answer.isStored ||
          ((s.syncs m).insertFrame m.key.origin (m.entry Pins.onlyDue)).ownEviction) := rfl

namespace Served

variable {s t : State}

/-- What is served but at `o` is served when `o` is. -/
theorem closed {o : Station} {R : Set Station} (h : Served ({o} \ {o}) R s) : Served ∅ R s := h.mono (by simp) fun _ => id

theorem open_at (h : Served ∅ ∅ s) (o : Station) : Served {o} ∅ s := h.mono (Set.empty_subset _) fun _ => id

/-- The context of `o` takes another place in its epoch. -/
theorem setCtx_open {o : Station} {Z : Set Station} (h : Served {o} ∅ s) (decided : Decided Z s) {c : Context}
    (held : c.trackerHeld = (s.ctx o).trackerHeld) (synced : (s.ctx o).isSynced = true → c.isSynced = true)
    (epoch : (s.ctx o).isSynced = false ∨ c.epoch = (s.ctx o).epoch) : Served {o} ∅ (s.setCtx o c) :=
  (h.setCtx decided held synced (fun _ => id) (.inr epoch)).mono (by simp) fun _ => id

/-- The happening at `o` ends with its change notice. -/
theorem settle_open {o : Station} (h : Served {o} ∅ s) (decided : Decided {o} s) (was : ContextState) :
    Served ∅ ∅ (s.settle o was true) :=
  (h.settle decided rfl (by simp) was (.inr ⟨rfl, Set.sdiff_self⟩)).closed

/-- An UNSYNCED context is served by no tracker. -/
theorem unserved (h : Served ∅ ∅ s) {o : Station} (unsynced : (s.ctx o).isSynced = false) :
    ∀ i, (s.tracker i).state ≠ .free → (s.tracker i).origin ≠ o := fun i busy eq => by
  have held := (h.current i).synced busy
  rw [eq, unsynced] at held
  cases held

/-- Places, states and runs stand. -/
theorem of_same {X R Z : Set Station} (h : Served X R s) (decided : Decided Z s) (sound : TrackersSound t) (pool : t.pool = s.pool)
    (store : t.store = s.store) (station : t.station = s.station)
    (ctx : ∀ o, (t.ctx o).place = (s.ctx o).place ∧ (t.ctx o).state = (s.ctx o).state) : Served X R t :=
  h.of_views decided.bounded sound (.of_pool pool) (by rw [station]; exact id)
    (fun o held => by rwa [Context.isSynced, (ctx o).2]) (fun o out _ => ⟨out, congrArg Prod.fst (ctx o).1⟩)
    (fun o out _ => ⟨out, .of_same store (ctx o).1⟩) fun o out gapped => ⟨out, by rwa [(ctx o).2] at gapped⟩

theorem syncFrame (h : Served ∅ ∅ s) (decided : Decided ∅ s) {m : Message} (unsynced : (s.ctx m.key.origin).state = .unsynced) :
    Served ∅ ∅ (s.syncFrame m) := by
  have off := Context.not_synced_of_unsynced unsynced
  have peer : m.key.origin ≠ s.stn := fun own => by
    rw [(decided.ownState _).mpr own] at unsynced
    cases unsynced
  have starts : Decided {m.key.origin} (s.syncs m) :=
    (decided.open_at m.key.origin).setCtx_open peer nofun fun _ => .single rfl rfl rfl
  have first : Served {m.key.origin} ∅ (s.syncs m) :=
    (h.open_at m.key.origin).setCtx_open decided rfl (fun _ => rfl) (.inl off)
  have none : ∀ i, ((s.syncs m).tracker i).state ≠ .free → ((s.syncs m).tracker i).origin ≠ m.key.origin := h.unserved off
  have peer' : (m.entry Pins.onlyDue).key.origin ≠ (s.syncs m).stn := peer
  rw [syncFrame_eq]
  generalize s.syncs m = u at starts first none peer' ⊢
  have inserted := starts.insertFrame (o := m.key.origin) (e := m.entry Pins.onlyDue) rfl peer' (.inl rfl)
  have next := first.insertFrame starts (fun _ => id) (by simp) (e := m.entry Pins.onlyDue) rfl peer' (.inl rfl)
  have there := inserted.calm (.afterDueInsert _ (u.insertFrame m.key.origin (m.entry Pins.onlyDue)).answer)
  have after := next.afterDueInsert inserted (u.insertFrame m.key.origin (m.entry Pins.onlyDue)).answer
  rcases insertFrame_cases (s := u) m.key.origin peer' with ⟨same, -, -⟩ | ⟨-, stored, -⟩
  · refine after.settle_unserved there (by simp) _ (by exact nofun) fun i => ?_
    have pool := afterDueInsert_only (u.insertFrame m.key.origin (m.entry Pins.onlyDue)).after
      (u.insertFrame m.key.origin (m.entry Pins.onlyDue)).answer .pool (by decide)
    rw [State.tracker_congr (congrArg _ pool), same]
    exact none i
  · rw [stored, Bool.true_or]
    exact after.settle_open there _

theorem behindFrame (h : Served ∅ ∅ s) (decided : Decided ∅ s) {m : Message} (synced : (s.ctx m.key.origin).isSynced = true)
    (behind : 32768 ≤ (m.key.seq - (s.ctx m.key.origin).nextDue).toNat) : Served ∅ ∅ (s.behindFrame m) := by
  have peer := decided.not_own synced
  unfold State.behindFrame
  dsimp only
  split
  · exact settle_open ((h.open_at m.key.origin).insertFrame (decided.open_at m.key.origin) (fun _ => id) (by simp)
      (e := m.entry Pins.none) rfl peer (.inl rfl))
      ((decided.open_at m.key.origin).insertFrame (o := m.key.origin) (e := m.entry Pins.none) rfl peer (.inl rfl)) _
  · rename_i kept
    refine h.insertFrame decided (by simp) (by simp) rfl peer (.inr ?_)
    rintro (⟨-, within⟩ | own)
    · exact not_within_of_behind behind within
    · exact kept own

theorem windowFrame (h : Served ∅ ∅ s) (decided : Decided ∅ s) {m : Message} (synced : (s.ctx m.key.origin).isSynced = true)
    (near : (m.key.seq - (s.ctx m.key.origin).nextDue).toNat ≤
      ((s.ctx m.key.origin).lossFloor - (s.ctx m.key.origin).nextDue).toNat + 63)
    (ahead : (m.key.seq - (s.ctx m.key.origin).nextDue).toNat < 32768) : Served ∅ ∅ (s.windowFrame m) := by
  have peer := decided.not_own synced
  have only := (insertFrame_only s m.key.origin (m.entry Pins.onlyDue)).then (afterDueInsert_only _
    (s.insertFrame m.key.origin (m.entry Pins.onlyDue)).answer)
  have first := (h.open_at m.key.origin).insertFrame (decided.open_at m.key.origin) (fun _ => id) (by simp)
    (e := m.entry Pins.onlyDue) rfl peer (.inl rfl)
  have there := (decided.open_at m.key.origin).insertFrame (o := m.key.origin) (e := m.entry Pins.onlyDue) rfl peer (.inl rfl)
  have after := first.afterDueInsert there (s.insertFrame m.key.origin (m.entry Pins.onlyDue)).answer
  have there := there.calm (.afterDueInsert _ (s.insertFrame m.key.origin (m.entry Pins.onlyDue)).answer)
  have settles := (Settles.insertFrame s m.key.origin (m.entry Pins.onlyDue)).trans (.afterDueInsert _
    (s.insertFrame m.key.origin (m.entry Pins.onlyDue)).answer)
  have refused : (s.insertFrame m.key.origin (m.entry Pins.onlyDue)).answer.isStored = false →
      Only [.counters, .events] s ((s.insertFrame m.key.origin (m.entry Pins.onlyDue)).after.afterDueInsert
        (s.insertFrame m.key.origin (m.entry Pins.onlyDue)).answer) := fun no => by
    rcases insertFrame_cases (s := s) m.key.origin (e := m.entry Pins.onlyDue) peer with ⟨same, -, -⟩ | ⟨-, stored, -⟩
    · rw [same]
      exact afterDueInsert_only _ _
    · rw [stored] at no
      cases no
  have stn := Decided.stn_of only
  unfold State.windowFrame
  dsimp only
  split
  · exact h
  · generalize (s.insertFrame m.key.origin (m.entry Pins.onlyDue)).after.afterDueInsert
      (s.insertFrame m.key.origin (m.entry Pins.onlyDue)).answer = u at after there settles refused stn ⊢
    have ctx := settles.ctx m.key.origin
    have moved := after.setCtx_open there
      (c := { u.ctx m.key.origin with horizon := later (u.ctx m.key.origin).horizon m.key.seq }) rfl (fun held => held) (.inr rfl)
    have moves := there.setCtx_open
      (c := { u.ctx m.key.origin with horizon := later (u.ctx m.key.origin).horizon m.key.seq }) (by rw [stn]; exact peer)
      (Context.not_own_of_synced ((settles.synced _).trans synced)) fun _ => by
        rw [ctx]
        exact .of_place (c := { s.ctx m.key.origin with horizon := later (s.ctx m.key.origin).horizon m.key.seq }) rfl
          ((decided.bounded _ synced).extend near ahead)
    refine moved.settle_either moves (by simp) _ _ fun quiet state => ?_
    simp only [Bool.or_eq_false_iff, bne_eq_false_iff_eq] at quiet
    obtain ⟨⟨no, horizon⟩, -⟩ := quiet
    have none := refused no
    have only := ((none.then (setCtx_only u m.key.origin { u.ctx m.key.origin with
      horizon := later (u.ctx m.key.origin).horizon m.key.seq })).then (decideState_only _ m.key.origin))
    have same (p : Station) : u.ctx p = s.ctx p := State.ctx_congr (none .contexts (by decide)) p
    refine h.of_same decided (moved.decideState moves rfl).sound (only .pool (by decide)) (only .store (by decide))
      (only .station (by decide)) fun p => ?_
    rw [(Settles.decideState _ m.key.origin).place]
    by_cases eq : p = m.key.origin
    · subst eq
      refine ⟨?_, state⟩
      rw [State.ctx_setCtx, if_pos rfl, horizon, same]
    · rw [decideState_other _ eq, State.ctx_setCtx, if_neg eq, same]
      exact ⟨rfl, rfl⟩

theorem farFrame (h : Served ∅ ∅ s) (decided : Decided ∅ s) {m : Message} (synced : (s.ctx m.key.origin).isSynced = true)
    (far : ((s.ctx m.key.origin).lossFloor - (s.ctx m.key.origin).nextDue).toNat + 63 <
      (m.key.seq - (s.ctx m.key.origin).nextDue).toNat)
    (ahead : (m.key.seq - (s.ctx m.key.origin).nextDue).toNat < 32768) : Served ∅ ∅ (s.farFrame m) := by
  have peer := decided.not_own synced
  unfold State.farFrame
  dsimp only
  split
  · exact h
  · have jumps := (decided.open_at m.key.origin).setCtx_open (c := { s.ctx m.key.origin with
      lossFloor := m.key.seq - 63, horizon := m.key.seq }) peer (Context.not_own_of_synced synced) fun _ => .jump far ahead
    have first := (h.open_at m.key.origin).setCtx_open decided (c := { s.ctx m.key.origin with
      lossFloor := m.key.seq - 63, horizon := m.key.seq }) rfl id (.inr rfl)
    have inserted := jumps.insertFrame (o := m.key.origin) (e := m.entry Pins.onlyDue) rfl peer (.inl rfl)
    have next := first.insertFrame jumps (fun _ => id) (by simp) (e := m.entry Pins.onlyDue) rfl peer (.inl rfl)
    exact settle_open (next.afterDueInsert inserted _) (inserted.calm (.afterDueInsert _ _)) _

/-- A restart up to its end leaves the tracker of the origin with the old epoch (R37, R70). -/
theorem beginRestart (h : Served ∅ ∅ s) (decided : Decided ∅ s) {o : Station} (synced : (s.ctx o).isSynced = true) (epoch : Epoch)
    (nextDue horizon floor : SeqNum) : Served {o} {o} (s.beginRestart o epoch nextDue horizon floor) := by
  obtain ⟨place, same⟩ := countRestart_place (s.ctx o)
  have kept : (s.ctx o).countRestart.trackerHeld = (s.ctx o).trackerHeld := by
    unfold Context.countRestart
    split <;> rfl
  have there := (decided.open_at o).setCtx_open (c := (s.ctx o).countRestart) (decided.not_own synced)
    (Context.not_own_of_synced (same.trans synced)) fun _ => (decided.bounded o synced).of_place place
  have counted := (h.open_at o).setCtx_open decided (c := (s.ctx o).countRestart) kept (fun _ => same.trans synced)
    (.inr (congrArg Prod.fst place))
  have releases : Calm (s.setCtx o (s.ctx o).countRestart)
      ((s.setCtx o (s.ctx o).countRestart).applyStore (s.store.restartRelease o (s.ctx o).epoch)) :=
    .applyStore (.restartRelease _ _ _) (.restartRelease _ _ _)
  have released := counted.calm there releases
  have held : ((s.setCtx o (s.ctx o).countRestart).applyStore (s.store.restartRelease o (s.ctx o).epoch)).ctx o =
      (s.ctx o).countRestart := by
    rw [State.ctx_congr (applyStore_only _ _ .contexts (by decide)), State.ctx_setCtx, if_pos rfl]
  have sets : Served (insert o {o}) {o} (s.beginRestart o epoch nextDue horizon floor) :=
    released.setCtx (there.calm releases) rfl id (Set.empty_subset _) (.inl (Set.mem_singleton o))
  exact sets.mono (by simp) fun _ => id

theorem restartFrame (h : Served ∅ ∅ s) (decided : Decided ∅ s) {m : Message} (synced : (s.ctx m.key.origin).isSynced = true) :
    Served ∅ ∅ (s.restartFrame m) := by
  have peer := decided.not_own synced
  have there : Decided {m.key.origin} (s.frameRestarts m) := decided.beginRestart synced fun c due horizon floor =>
    (Context.Bounded.restartByFrame due horizon floor).1
  have begins : Served {m.key.origin} {m.key.origin} (s.frameRestarts m) := h.beginRestart decided synced _ _ _ _
  have stn := Decided.stn_of (frameRestarts_only s m)
  rw [restartFrame_eq]
  have inserted := there.insertFrame (o := m.key.origin) (e := m.entry Pins.onlyDue) rfl (by rw [stn]; exact peer) (.inl rfl)
  have next := begins.insertFrame there (fun _ => id) (fun _ => id) (e := m.entry Pins.onlyDue) rfl (by rw [stn]; exact peer) (.inl rfl)
  exact (next.afterDueInsert inserted _).endRestart (inserted.calm (.afterDueInsert _ _))

theorem classify (h : Served ∅ ∅ s) (decided : Decided ∅ s) (m : Message) : Served ∅ ∅ (s.classify m) := by
  have classified := classify_cases decided.bounded m
  generalize s.classify m = t at classified ⊢
  cases classified with
  | useless => exact h
  | stale => exact h.calm decided (.of_only (count_only _ _))
  | sync unsynced => exact h.syncFrame decided unsynced
  | restart synced => exact h.restartFrame decided synced
  | behind synced _ behind => exact h.behindFrame decided synced behind
  | window synced _ _ near ahead => exact h.windowFrame decided synced near ahead
  | far synced _ _ far ahead => exact h.farFrame decided synced far ahead

end Served

end Sys2Proof.Machine
end

section
/-! BEACONs, give-ups, records and the entry to ACTIVE leave the trackers up to date (O51). -/

open Sys2Proof

namespace Sys2Proof.Machine

set_option Elab.async false

namespace Served

variable {s t : State}

/-- A synchronised context takes another place in its epoch, and the happening ends with its change notice. -/
theorem moved (h : Served ∅ ∅ s) (decided : Decided ∅ s) {o : Station} (synced : (s.ctx o).isSynced = true) {c : Context}
    (bounded : c.Bounded) (held : c.trackerHeld = (s.ctx o).trackerHeld) (still : c.isSynced = true)
    (epoch : c.epoch = (s.ctx o).epoch) (was : ContextState) : Served ∅ ∅ ((s.setCtx o c).settle o was true) :=
  settle_open ((h.open_at o).setCtx_open decided held (fun _ => still) (.inr epoch))
    ((decided.open_at o).setCtx_open (decided.not_own synced) (Context.not_own_of_synced still) fun _ => bounded) was

theorem takeBeacon (h : Served ∅ ∅ s) (decided : Decided ∅ s) (o : Station) (epoch : Epoch) (nextSeq : SeqNum) :
    Served ∅ ∅ (s.takeBeacon o epoch nextSeq) := by
  by_cases synced : (s.ctx o).isSynced = true
  · rw [takeBeacon_synced synced]
    split
    · rw [restartBeacon_eq]
      exact (h.beginRestart decided synced _ _ _ _).endRestart
        (decided.beginRestart synced fun c due horizon floor => .restartByBeacon due horizon floor)
    · split
      · unfold State.raiseByBeacon
        dsimp only
        split
        · rename_i raises
          exact h.moved decided synced ((decided.bounded o synced).raise raises.1 raises.2).1 rfl synced rfl _
        · exact h
      · exact h
  · have off := Bool.eq_false_iff.mpr synced
    by_cases own : (s.ctx o).state = .own
    · have eq : s.takeBeacon o epoch nextSeq = s := by simp only [State.takeBeacon, own]
      rw [eq]
      exact h
    · have unsynced : (s.ctx o).state = .unsynced := by
        by_contra some
        exact synced (Context.synced_of some own)
      have eq : s.takeBeacon o epoch nextSeq = s.setCtx o { s.ctx o with
          state := .steady, epoch := epoch, nextDue := nextSeq, lossFloor := nextSeq, horizon := nextSeq - 1 } := by
        simp only [State.takeBeacon, unsynced]
      rw [eq]
      refine close_unserved (o := o) ?_ ?_ (h.unserved off)
      · exact (h.open_at o).setCtx_open decided rfl (fun _ => rfl) (.inl off)
      · rw [State.ctx_setCtx, if_pos rfl]
        exact nofun

theorem giveUp (h : Served ∅ ∅ s) (decided : Decided ∅ s) (o : Station) (epoch : Epoch) (value : SeqNum) :
    Served ∅ ∅ (s.giveUp o epoch value) := by
  unfold State.giveUp
  dsimp only
  split
  · rename_i taken
    obtain ⟨synced, -, -⟩ := taken
    exact h.moved decided synced ((decided.bounded o synced).giveUp value) rfl synced rfl _
  · exact h

/-- No origin waits beside a FREE tracker, so none is claimed. -/
theorem claimIfWaiting_same (h : Served ∅ ∅ s) (o : Station) : s.claimIfWaiting o = s := by
  unfold State.claimIfWaiting
  split
  · rename_i waits
    simp only [State.isActive, Bool.and_eq_true, beq_iff_eq, waiting_iff] at waits
    obtain ⟨active, gapped, clear⟩ := waits
    split
    · rename_i i found
      have free : (s.tracker i).state = .free := by simpa using List.find?_some found
      rw [h.served active ⟨i, free⟩ o (by simp) gapped] at clear
      cases clear
    · rfl
  · rfl

theorem giveUpRun (h : Served ∅ ∅ s) (decided : Decided ∅ s) (i : Fin 8) : Served ∅ ∅ (s.giveUpRun i) := by
  have gaveUp := h.giveUp decided (s.tracker i).origin (s.tracker i).epoch
    ((s.tracker i).runFirst + BitVec.ofNat 16 (s.tracker i).runCount)
  have there := decided.giveUp (s.tracker i).origin (s.tracker i).epoch
    ((s.tracker i).runFirst + BitVec.ofNat 16 (s.tracker i).runCount)
  unfold State.giveUpRun
  dsimp only
  generalize s.giveUp (s.tracker i).origin (s.tracker i).epoch
    ((s.tracker i).runFirst + BitVec.ofNat 16 (s.tracker i).runCount) = u at gaveUp there ⊢
  have freed : Served ∅ ∅ (if (u.tracker i).origin = (s.tracker i).origin then u.freeTracker i else u) := by
    split
    · by_cases free : (u.tracker i).state = .free
      · have same : u.freeTracker i = u := by rw [freeTracker_eq, if_pos free]
        rw [same]
        exact gaveUp
      · exact ((gaveUp.open_at _).freeTracker there free rfl).mono (fun _ => id) (by simp)
    · exact gaveUp
  rw [freed.claimIfWaiting_same]
  exact freed

theorem advance (h : Served ∅ ∅ s) (decided : Decided ∅ s) {o : Station} (synced : (s.ctx o).isSynced = true) {k : Nat}
    (few : k ≤ 32767) (reach : k ≤ (s.ctx o).extent) : Served ∅ ∅ (s.advance o ((s.ctx o).nextDue + BitVec.ofNat 16 k)) := by
  have old := decided.bounded o synced
  rw [old.extent_eq] at reach
  have eq : s.advance o ((s.ctx o).nextDue + BitVec.ofNat 16 k) =
      (s.setCtx o ((s.ctx o).advanceTo ((s.ctx o).nextDue + BitVec.ofNat 16 k))).settle o (s.ctx o).state true := if_pos synced
  rw [eq]
  exact h.moved decided synced (old.advanceTo few reach) rfl synced rfl _

theorem advanceRestart (h : Served ∅ ∅ s) (decided : Decided ∅ s) (o : Station) : Served ∅ ∅ (s.advanceRestart o) := by
  refine h.of_same decided (h.sound.inner (.setCtx s o _)) rfl rfl rfl fun p => ?_
  rw [State.advanceRestart, State.ctx_setCtx]
  split
  · rename_i eq
    rw [eq]
    exact ⟨rfl, rfl⟩
  · exact ⟨rfl, rfl⟩

theorem table (table : Table s t) (decided : Decided ∅ s) (h : Served ∅ ∅ s) : Served ∅ ∅ t := by
  induction table with
  | calm calm => exact h.calm decided calm
  | trans one _ first second => exact second (decided.table one) (first decided h)
  | frame s m => exact h.classify decided m
  | beacon s o epoch nextSeq => exact h.takeBeacon decided o epoch nextSeq
  | giveUp s i => exact h.giveUpRun decided i
  | advance s o k synced _ few reach => exact h.advance decided synced few reach
  | restart s o => exact h.advanceRestart decided o

end Served

/-! ### The entry to ACTIVE (R56) -/

/-- What each offered tracker comes to: it stands, or it takes the run of a GAPPED origin. -/
theorem Offering.each {s : State} (contexts : ContextsSound s) (gaps : GapsDecided s) (l : List (Fin 8)) {u : State}
    (h : Offering s u) (i : Fin 8) : (l.foldl State.offer u).tracker i = u.tracker i ∨ ∃ p first count,
      (s.ctx p).state = .gapped ∧ RunIs s p first count ∧ (l.foldl State.offer u).tracker i = s.claimedTracker p first count := by
  induction l generalizing u with
  | nil => exact .inl rfl
  | cons j l ih =>
    have one : (u.offer j).tracker i = u.tracker i ∨ ∃ p first count,
        (s.ctx p).state = .gapped ∧ RunIs s p first count ∧ (u.offer j).tracker i = s.claimedTracker p first count := by
      by_cases waits : ∃ o, u.waiting o = true
      · obtain ⟨o, waits⟩ := waits
        obtain ⟨p, first, count, good, run, -, claims⟩ := h.claims contexts gaps j waits
        by_cases eq : i = j
        · subst eq
          exact .inr ⟨p, first, count, ((h.waiting p).mp good).1, run, by rw [claims]; simp⟩
        · exact .inl (offer_tracker_other u j i eq)
      · have none (o : Station) : u.waiting o = false := Bool.eq_false_iff.mpr fun yes => waits ⟨o, yes⟩
        rw [offer_of_none none]
        exact .inl rfl
    rw [List.foldl_cons]
    rcases ih (h.offer j) with same | taken
    · rw [same]
      exact one
    · exact .inr taken

/-- The trackers offered at the entry to ACTIVE serve present runs, and no origin waits beside a FREE one. -/
theorem runsCurrent_entered {s : State} (contexts : ContextsSound s) (gaps : GapsDecided s) (trackers : TrackersSound s)
    (inactive : s.station.state ≠ .active) (sound : TrackersSound s.activated.offerAll) : RunsCurrent s.activated.offerAll := by
  have free : ∀ i, (s.tracker i).state = .free := trackers.activeOnly inactive
  have clear (p : Station) : (s.ctx p).trackerHeld = false := Bool.eq_false_iff.mpr fun held => by
    obtain ⟨i, busy, -⟩ := (trackers.held p).mp held
    exact busy (free i)
  have contexts' : ContextsSound s.activated := ⟨contexts.ownState, contexts.unsynced, contexts.bounded, contexts.due⟩
  have gaps' : GapsDecided s.activated := gaps
  have only := offerAll_only s.activated
  have offering : Offering s.activated s.activated.offerAll :=
    ⟨only .store (by decide), only .station (by decide), offerAll_heldOnly s.activated⟩
  have current (i : Fin 8) : Current ∅ ∅ s.activated.offerAll (s.activated.offerAll.tracker i) := by
    refine Current.offering ?_ offering contexts'.bounded
    rcases Offering.each contexts' gaps' allTrackers (.refl _) i with same | ⟨p, first, count, gapped, run, taken⟩
    · exact .free ((congrArg Tracker.state same).trans (free i))
    · rw [State.offerAll, taken]
      exact ⟨fun _ => Context.synced_of_gapped gapped, fun _ _ => rfl, fun _ _ => run⟩
  refine ⟨fun i busy => (current i).epoch busy (by simp), fun i => (current i).synced, fun i busy => (current i).run busy (by simp), ?_⟩
  rintro - ⟨i, idle⟩ o gapped
  rw [offering.held o] at gapped
  have waits : s.activated.waiting o = true := (waiting_iff _ o).mpr ⟨gapped, clear o⟩
  rcases Offering.serves contexts' gaps' allTrackers allTrackers_nodup (.refl _) waits with ⟨j, -, first, count, -, taken⟩ | none
  · obtain ⟨-, serves, origin, -⟩ := claimedTracker_consistent s.activated o first count
    exact (sound.held o).mpr ⟨j, by rw [State.offerAll, taken]; exact serves, by rw [State.offerAll, taken]; exact origin⟩
  · exact absurd idle (none i (mem_allTrackers i))

theorem runsCurrent_exec {c : Instr} {s t : State} (e : exec c s = .next t) (store : StoreSound s) (contexts : ContextsSound s)
    (gaps : GapsDecided s) (trackers : TrackersSound s) (runs : RunsCurrent s) : RunsCurrent t := by
  have sound := trackersSound_exec e trackers
  rcases exec_cases store contexts e with table | ⟨listening, eq⟩ | ⟨epoch, fresh⟩
  · exact (Served.table table (.of_sound store contexts gaps) (.of_runs trackers runs)).runs
  · rw [eq] at sound ⊢
    exact runsCurrent_entered contexts gaps trackers (by rw [listening]; exact nofun) sound
  · exact fresh.runsCurrent

theorem RunsCurrent.withPending {s : State} (h : RunsCurrent s) (l : List Instr) : RunsCurrent (s.withPending l) :=
  ⟨h.epoch, h.synced, fun i busy =>
    have run := h.run i busy
    ⟨run.missing, run.lowest, run.size, run.absent, run.ends⟩, h.served⟩

/-- Settles O51: each change of a context's numbers ends with the notice that brings its tracker up to date, and a tracker that
is freed is offered to the origins that wait. -/
theorem runsStayCurrent : Obligations.RunsStayCurrent := fun _ _ e _ store contexts gaps trackers runs =>
  step_keeps (P := fun s => StoreSound s ∧ ContextsSound s ∧ GapsDecided s ∧ TrackersSound s ∧ RunsCurrent s)
    (fun s l ⟨store, contexts, gaps, trackers, runs⟩ =>
      ⟨store.withPending l, contexts.withPending l, gaps, trackers.of_only (withPending_only s l), runs.withPending l⟩)
    (fun _ ⟨_, _, _, _, h⟩ => h)
    (fun _ _ _ e ⟨store, contexts, gaps, trackers, runs⟩ => runsCurrent_exec e store contexts gaps trackers runs) e
    ⟨store, contexts, gaps, trackers, runs⟩

end Sys2Proof.Machine
end
